-- ==== Sys2Proof/Word.lean ====
section
/-! DEFINITION. The word types of the serial sensor transceiver (00_scope.md rules R7 and R8): bit 0 is the
least significant bit of every vector.  A single bit (a line level, a flag) is a `Bool`, `true` for 1. -/

namespace Sys2Proof

/-- A wire byte, a status byte, a checksum byte (R7). -/
abbrev Byte := BitVec 8

/-- A host command word, a raw measurement code, a timeout or an operand register (R7). -/
abbrev Half := BitVec 16

/-- A host register, the time base, the temperature result (R7, R25, R40). -/
abbrev Word := BitVec 32

/-- The humidity result (R7). -/
abbrev Long := BitVec 64

end Sys2Proof
end

