-- ==== Sys2Proof/Machine/Params.lean ====
section
/-! DEFINITION. The decided implementation parameters of 00_scope.md rule R6, each in one place.  The values the spec
itself marks as general knowledge of the sensor class (93_implementation_defined.md G1 to G10) are the spec's decided
defaults (92_eei_decisions.md D6, D15, D26); the start sequence stands with the frame encoder
(`Sys2Proof.Machine.startSeq`). -/

namespace Sys2Proof.Params

/-- `ADDR`, the 3-bit sensor address (R6, R91). -/
def addr : BitVec 3 := 0

/-- `CMD_MEASURE_TEMP` (R6, R99). -/
def cmdMeasureTemp : BitVec 5 := 0b00011

/-- `CMD_MEASURE_RH` (R6, R99). -/
def cmdMeasureRh : BitVec 5 := 0b00101

/-- `CMD_READ_STATUS` (R6, R99). -/
def cmdReadStatus : BitVec 5 := 0b00111

/-- `CMD_WRITE_STATUS` (R6, R99). -/
def cmdWriteStatus : BitVec 5 := 0b00110

/-- `CMD_SOFT_RESET` (R6, R99). -/
def cmdSoftReset : BitVec 5 := 0b11110

/-- `SETTLE_MS`, in ticks of `NOW` (R6, R198). -/
def settleMs : Nat := 11

/-- `NOW_WIDTH`, the width of the millisecond time base in bits (R6, R25, D7). -/
abbrev nowWidth : Nat := 32

/-- `OTP_WRAPPER_INVERT` (R6, R197, D15). -/
def otpWrapperInvert : Bool := true

/-- The coefficient table, address space `ROM` (R62): the stored integer at each index, scaled as the table says.
The list is the whole of the space (R60: 12 constants). -/
def rom : List Int :=
  [ -3970          -- 0  D1c      scale 10^2
  , 1              -- 1  D2c[0]   scale 10^2
  , 4              -- 2  D2c[1]
  , -20468000000   -- 3  C1e      scale 10^10
  , 367000000      -- 4  C2e[0]   scale 10^10
  , 5872000000     -- 5  C2e[1]
  , -15955         -- 6  C3e[0]   scale 10^10
  , -4084500       -- 7  C3e[1]
  , 1000           -- 8  T1e      scale 10^5
  , 8              -- 9  T2e[0]   scale 10^5
  , 128            -- 10 T2e[1]
  , 2500 ]         -- 11 AMBc     scale 10^2

/-- One word of the coefficient table, `MemRead(ROM, i, -)` (R60, R62).  There is no index above 11; the engine reads
none. -/
def romAt (i : Nat) : Int := rom.getD i 0

/-- A resolution-selected entry: the index of its high-resolution row, one more in low resolution (R62). -/
def romRes (i : Nat) (res : Bool) : Int := romAt (if res then i + 1 else i)

end Sys2Proof.Params

namespace Sys2Proof

/-- A value of the time base `NOW`, of `T0`, and a number of ticks (R25). -/
abbrev Time := BitVec Params.nowWidth

end Sys2Proof
end

