-- ==== Sys2Proof/Syntax.lean ====
section
/-! DEFINITION. The instructions of the block: one constructor for each row of spec/opcode_table.json.
Twelve are host operations (format `H`, 30_encoding.md rules R94 and R100), written by the host to register `CMD`;
five are wire commands (format `W`, rules R91 and R99), sent by the sequencer to the sensor. -/

namespace Sys2Proof

/-- The 17 rows of the opcode table.  `bit` is an index (R107: 0 to 7, checked by `Instr.wellFormed`); the one-bit
fields are booleans. -/
inductive Instr where
  /-- `INIT`, OPC 0x1 (R199, R203). -/
  | init
  /-- `SOFT_RESET`, OPC 0x2 (R202). -/
  | softReset
  /-- `GET_STATUS`, OPC 0x3 (R200). -/
  | getStatus
  /-- `SET_STATUS_BIT`, OPC 0x4, fields `BIT` and `VAL` (R201). -/
  | setStatusBit (bit : Nat) (val : Bool)
  /-- `SET_LOW_RES`, OPC 0x5 (R194, R203). -/
  | setLowRes
  /-- `SET_HIGH_RES`, OPC 0x6 (R195, R203). -/
  | setHighRes
  /-- `SET_HEATER`, OPC 0x7, field `VAL` (R196, R203). -/
  | setHeater (val : Bool)
  /-- `SET_OTP_RELOAD`, OPC 0x8, field `VAL` (R197, R203). -/
  | setOtpReload (val : Bool)
  /-- `READ_TEMP`, OPC 0x9, field `FACE` (R225). -/
  | readTemp (face : Bool)
  /-- `READ_HUMID`, OPC 0xA, fields `FACE` and `TV` (R226, R227). -/
  | readHumid (face : Bool) (tv : Bool)
  /-- `CAL_TEMP`, OPC 0xB, field `RES` (R257). -/
  | calTemp (res : Bool)
  /-- `CAL_HUMID`, OPC 0xC, field `RES` (R258). -/
  | calHumid (res : Bool)
  /-- `W.MEASURE_TEMP`, command byte 0x03 (R99, R223). -/
  | wMeasureTemp
  /-- `W.MEASURE_RH`, command byte 0x05 (R99, R223). -/
  | wMeasureRh
  /-- `W.READ_STATUS`, command byte 0x07 (R99, R190). -/
  | wReadStatus
  /-- `W.WRITE_STATUS`, command byte 0x06 (R99, R192). -/
  | wWriteStatus
  /-- `W.SOFT_RESET`, command byte 0x1E (R99, R198). -/
  | wSoftReset
deriving DecidableEq, Repr

/-- The format of a row: a 16-bit host word or an 8-bit wire byte (R90). -/
inductive Format where
  /-- Format `H`, written to `CMD` by the host (R94). -/
  | host
  /-- Format `W`, sent to the sensor by the sequencer (R91). -/
  | wire
deriving DecidableEq, Repr

/-- The format of each instruction (R99, R100). -/
def Instr.format : Instr → Format
  | .init => .host
  | .softReset => .host
  | .getStatus => .host
  | .setStatusBit _ _ => .host
  | .setLowRes => .host
  | .setHighRes => .host
  | .setHeater _ => .host
  | .setOtpReload _ => .host
  | .readTemp _ => .host
  | .readHumid _ _ => .host
  | .calTemp _ => .host
  | .calHumid _ => .host
  | .wMeasureTemp => .wire
  | .wMeasureRh => .wire
  | .wReadStatus => .wire
  | .wWriteStatus => .wire
  | .wSoftReset => .wire

/-- How many bits an instruction of the format has (R7, R104). -/
def Format.width : Format → Nat
  | .host => 16
  | .wire => 8

end Sys2Proof
end

