-- ==== Sys2Proof/WellFormed.lean ====
section
/-! DEFINITION. Which terms of `Instr` stand for an instruction of the hardware.  The one check the encodings ask for
is the range of the status bit index (30_encoding.md rules R94 and R107, 44_status_manager.md rule R192: 0 to 7);
every other field is one bit wide and has no value to refuse. -/

namespace Sys2Proof

/-- The check of an instruction's operands (R107, R192). -/
def Instr.wellFormed : Instr → Bool
  | .init => true
  | .softReset => true
  | .getStatus => true
  | .setStatusBit bit _ => decide (bit < 8)
  | .setLowRes => true
  | .setHighRes => true
  | .setHeater _ => true
  | .setOtpReload _ => true
  | .readTemp _ => true
  | .readHumid _ _ => true
  | .calTemp _ => true
  | .calHumid _ => true
  | .wMeasureTemp => true
  | .wMeasureRh => true
  | .wReadStatus => true
  | .wWriteStatus => true
  | .wSoftReset => true

end Sys2Proof
end

