-- ==== Sys2Proof/Decode.lean ====
section
/-! DEFINITION. The decoder and the encoder of the two instruction formats (30_encoding.md): a host command word is 16
bits (rules R94, R100, R101), a wire command byte is 8 bits (rules R91, R99, R102).  Decoding is total and rejects by
name; reserved words never fall through to a neighbour. -/

namespace Sys2Proof

/-- Why a word is no instruction. -/
inductive DecodeError where
  /-- Host word with `OPC` 0x0, 0xD, 0xE or 0xF (R101). -/
  | unassignedOpcode (opc : BitVec 4)
  /-- Host word with a non-zero bit in 4:0 or in a field its operation does not use (R94, R101). -/
  | unusedFieldSet (opc : BitVec 4)
  /-- Wire byte with an address other than `ADDR` (R91, R102). -/
  | foreignAddress (addr : BitVec 3)
  /-- Wire byte with one of the 27 command codes that are never sent (R102). -/
  | unknownWireCommand (cmd : BitVec 5)
  /-- A bit count that is no format's (R104: a host word is 16 bits, a wire command 8). -/
  | noSuchFormat (nbits : Nat)
deriving DecidableEq, Repr

/-- What the decoder answers. -/
inductive Decoded where
  /-- The bits stand for this instruction. -/
  | instr (i : Instr)
  /-- The bits stand for none. -/
  | rejected (why : DecodeError)
deriving DecidableEq, Repr

/-- The instruction, if there is one. -/
def Decoded.toOption : Decoded → Option Instr
  | .instr i => some i
  | .rejected _ => none

/-! ## Format `H`, the host command word -/

/-- `OPC`, bits 15:12 (R94). -/
def opcOf (w : Half) : BitVec 4 := w.extractLsb' 12 4

/-- `FACE`, bit 11 (R94). -/
def faceOf (w : Half) : Bool := w.getLsbD 11

/-- `TV`, bit 10 (R94). -/
def tvOf (w : Half) : Bool := w.getLsbD 10

/-- `VAL`, bit 9 (R94). -/
def valOf (w : Half) : Bool := w.getLsbD 9

/-- `BIT`, bits 8:6 (R94). -/
def bitOf (w : Half) : BitVec 3 := w.extractLsb' 6 3

/-- `RES`, bit 5 (R94). -/
def resOf (w : Half) : Bool := w.getLsbD 5

/-- The word is `i` if every bit outside `free` and `OPC` is 0 (R94: a field the operation does not use must be 0). -/
def ifUnusedZero (w free : Half) (i : Instr) : Decoded :=
  if w &&& ~~~(0xF000#16 ||| free) = 0 then .instr i else .rejected (.unusedFieldSet (opcOf w))

/-- The host operation a command word stands for (R100, R101). -/
def decodeHost (w : Half) : Decoded :=
  match (opcOf w).toNat with
  | 0x1 => ifUnusedZero w 0x0000 .init
  | 0x2 => ifUnusedZero w 0x0000 .softReset
  | 0x3 => ifUnusedZero w 0x0000 .getStatus
  | 0x4 => ifUnusedZero w 0x03C0 (.setStatusBit (bitOf w).toNat (valOf w))
  | 0x5 => ifUnusedZero w 0x0000 .setLowRes
  | 0x6 => ifUnusedZero w 0x0000 .setHighRes
  | 0x7 => ifUnusedZero w 0x0200 (.setHeater (valOf w))
  | 0x8 => ifUnusedZero w 0x0200 (.setOtpReload (valOf w))
  | 0x9 => ifUnusedZero w 0x0800 (.readTemp (faceOf w))
  | 0xA => ifUnusedZero w 0x0C00 (.readHumid (faceOf w) (tvOf w))
  | 0xB => ifUnusedZero w 0x0020 (.calTemp (resOf w))
  | 0xC => ifUnusedZero w 0x0020 (.calHumid (resOf w))
  | _ => .rejected (.unassignedOpcode (opcOf w))

/-! ## Format `W`, the wire command byte -/

/-- The command byte of a 5-bit code: `(ADDR << 5) | cmd5` (R91). -/
def commandByte (cmd : BitVec 5) : Byte := Params.addr ++ cmd

/-- The wire command a byte stands for (R99, R102). -/
def decodeWire (b : Byte) : Decoded :=
  if b.extractLsb' 5 3 ≠ Params.addr then .rejected (.foreignAddress (b.extractLsb' 5 3))
  else if b = commandByte Params.cmdMeasureTemp then .instr .wMeasureTemp
  else if b = commandByte Params.cmdMeasureRh then .instr .wMeasureRh
  else if b = commandByte Params.cmdReadStatus then .instr .wReadStatus
  else if b = commandByte Params.cmdWriteStatus then .instr .wWriteStatus
  else if b = commandByte Params.cmdSoftReset then .instr .wSoftReset
  else .rejected (.unknownWireCommand (b.extractLsb' 0 5))

/-- The decoder on the bits of either format, numbered as the opcode table numbers them. -/
def decodeBits (nbits w : Nat) : Decoded :=
  if nbits = 16 then decodeHost (BitVec.ofNat 16 w)
  else if nbits = 8 then decodeWire (BitVec.ofNat 8 w)
  else .rejected (.noSuchFormat nbits)

/-- The instruction the decoder reads from the `nbits` bits `w` of a row of the opcode table.  A format has one word,
so there are no operand words and no byte order to lay out (R104). -/
def decodeTableWord (nbits w : Nat) : Option Instr := (decodeBits nbits w).toOption

/-! ## Encoder -/

/-- A host word assembled from its fields (R94). -/
def hostFields (opc : BitVec 4) (face tv val : Bool) (bit : BitVec 3) (res : Bool) : Half :=
  opc ++ BitVec.ofBool face ++ BitVec.ofBool tv ++ BitVec.ofBool val ++ bit ++ BitVec.ofBool res ++ 0#5

/-- The bits of an instruction, in the low `Format.width` bits (R94 and R100; R91 and R99). -/
def encode : Instr → Half
  | .init => hostFields 0x1 false false false 0 false
  | .softReset => hostFields 0x2 false false false 0 false
  | .getStatus => hostFields 0x3 false false false 0 false
  | .setStatusBit bit val => hostFields 0x4 false false val (BitVec.ofNat 3 bit) false
  | .setLowRes => hostFields 0x5 false false false 0 false
  | .setHighRes => hostFields 0x6 false false false 0 false
  | .setHeater val => hostFields 0x7 false false val 0 false
  | .setOtpReload val => hostFields 0x8 false false val 0 false
  | .readTemp face => hostFields 0x9 face false false 0 false
  | .readHumid face tv => hostFields 0xA face tv false 0 false
  | .calTemp res => hostFields 0xB false false false 0 res
  | .calHumid res => hostFields 0xC false false false 0 res
  | .wMeasureTemp => (commandByte Params.cmdMeasureTemp).setWidth 16
  | .wMeasureRh => (commandByte Params.cmdMeasureRh).setWidth 16
  | .wReadStatus => (commandByte Params.cmdReadStatus).setWidth 16
  | .wWriteStatus => (commandByte Params.cmdWriteStatus).setWidth 16
  | .wSoftReset => (commandByte Params.cmdSoftReset).setWidth 16

/-! ## The opcode table (R99, R100) -/

/-- The `match` column of an instruction's row; a wire command's is its command byte (R91, R99). -/
def rowMatch : Instr → Half
  | .init => 0x1000
  | .softReset => 0x2000
  | .getStatus => 0x3000
  | .setStatusBit _ _ => 0x4000
  | .setLowRes => 0x5000
  | .setHighRes => 0x6000
  | .setHeater _ => 0x7000
  | .setOtpReload _ => 0x8000
  | .readTemp _ => 0x9000
  | .readHumid _ _ => 0xA000
  | .calTemp _ => 0xB000
  | .calHumid _ => 0xC000
  | .wMeasureTemp => (commandByte Params.cmdMeasureTemp).setWidth 16
  | .wMeasureRh => (commandByte Params.cmdMeasureRh).setWidth 16
  | .wReadStatus => (commandByte Params.cmdReadStatus).setWidth 16
  | .wWriteStatus => (commandByte Params.cmdWriteStatus).setWidth 16
  | .wSoftReset => (commandByte Params.cmdSoftReset).setWidth 16

/-- The `mask` column of an instruction's row. -/
def rowMask : Instr → Half
  | .init => 0xFFFF
  | .softReset => 0xFFFF
  | .getStatus => 0xFFFF
  | .setStatusBit _ _ => 0xFC3F
  | .setLowRes => 0xFFFF
  | .setHighRes => 0xFFFF
  | .setHeater _ => 0xFDFF
  | .setOtpReload _ => 0xFDFF
  | .readTemp _ => 0xF7FF
  | .readHumid _ _ => 0xF3FF
  | .calTemp _ => 0xFFDF
  | .calHumid _ => 0xFFDF
  | .wMeasureTemp => 0xFF
  | .wMeasureRh => 0xFF
  | .wReadStatus => 0xFF
  | .wWriteStatus => 0xFF
  | .wSoftReset => 0xFF

/-- The twelve rows of R100 as pairs of `match` and `mask`. -/
def hostRows : List (Half × Half) :=
  [ (0x1000, 0xFFFF), (0x2000, 0xFFFF), (0x3000, 0xFFFF), (0x4000, 0xFC3F), (0x5000, 0xFFFF), (0x6000, 0xFFFF)
  , (0x7000, 0xFDFF), (0x8000, 0xFDFF), (0x9000, 0xF7FF), (0xA000, 0xF3FF), (0xB000, 0xFFDF), (0xC000, 0xFFDF) ]

end Sys2Proof
end

