-- ==== Sys2Proof/Config.lean ====
section
/-! DEFINITION. What the spec leaves to the platform or to the environment.

The two OPEN parameters of 92_eei_decisions.md (D9) stand here as one named value each; the values no rule fixes
after which the block goes on (93_implementation_defined.md U1 to U4) are constants without a body, so that no proof
can see what they are.  The decided parameters of 00_scope.md rule R6 stand in `Sys2Proof.Machine.Params`. -/

namespace Sys2Proof.Config

/-- `ACK_TMO_RESET` (R6, D9): OPEN in the spec.  DESIGN CHOICE, unsafe: zero (assumption log 1). -/
def ackTmoReset : Half := 0

/-- `MEAS_TMO_RESET` (R6, D9): OPEN in the spec.  DESIGN CHOICE, unsafe: zero (assumption log 1). -/
def measTmoReset : Half := 0

/-- The level of DATA while the block drives it high and the sensor pulls it low (R23, U1): any value.
DESIGN CHOICE, safe: a free value for each such look, numbered by `Env.free` (assumption log 3). -/
opaque contendedLevel : Nat → Bool

/-- What the sensor does to DATA in a step of which the script says nothing (R24, U2): any value.
DESIGN CHOICE, safe (assumption log 2). -/
opaque unscriptedPull : Nat → Bool

/-- How far `NOW` has advanced in a step of which the script says nothing (R25, U3): any number of ticks.
DESIGN CHOICE, safe (assumption log 2). -/
opaque unscriptedTicks : Nat → Time

end Sys2Proof.Config
end

