-- ==== Sys2Proof/Machine/State.lean ====
section
/-! DEFINITION. The state of one transceiver block and of what stands around it (10_state.md).

`Block` is exactly the table of rule R20.  `Env` holds what the spec calls environment (rules R14, R24 to R26, R57):
the two inputs `SENSOR_PULL` and `NOW`, the host port's read data, and the interleaving of the agents still to come.
All of it is plain data. -/

namespace Sys2Proof.Machine

/-! ## Values of the state elements -/

/-- A line direction (R10): `IN` is "pulled-up-input", `OUT` "driven-output". -/
inductive Dir where
  /-- `IN` (0). -/
  | inp
  /-- `OUT` (1). -/
  | out
deriving DecidableEq, Repr

/-- The seven states of the sequencer (R30, R220); no rule writes the eighth code. -/
inductive SeqState where
  /-- 0: doing nothing, no result pending. -/
  | idle
  /-- 1: inside `sendCommand`, `sendByte` of a status write, or the settle delay. -/
  | commandSent
  /-- 2: inside `awaitAck`. -/
  | awaitingAck
  /-- 3: inside `awaitReady`. -/
  | awaitingMeasurement
  /-- 4: inside `read8` or `read16`, or applying calibration. -/
  | decoding
  /-- 5: finished with a result. -/
  | done
  /-- 6: finished with an error. -/
  | failed
deriving DecidableEq, Repr

/-- The error kinds (R281, 60_exceptions.md). -/
inductive ErrKind where
  /-- 0: the operation has not failed. -/
  | noError
  /-- 1: an `awaitAck` timed out. -/
  | handshakeTimeout
  /-- 2: an `awaitReady` timed out. -/
  | measurementTimeout
  /-- 3: the handshake of the status read of `INIT` timed out. -/
  | constructionFailure
deriving DecidableEq, Repr

/-! ## The sequencer's position: steps still to be performed (R31)

Each procedure is a list of wire events with updates between them (R11, R12, R120); the position is the list of what
is left of the running operation. -/

/-- An event that only writes pins (R11, R121 to R123). -/
inductive PinEvent where
  /-- `C1` (`true`) or `C0` (`false`). -/
  | clk (v : Bool)
  /-- `D1` (`true`) or `D0` (`false`). -/
  | data (v : Bool)
  /-- `DZ`. -/
  | release
deriving DecidableEq, Repr

/-- A wire event with the value it carried (R11). -/
inductive WireEvent where
  /-- One of `C1 C0 D1 D0 DZ`. -/
  | pin (e : PinEvent)
  /-- `S(b)`. -/
  | sample (b : Bool)
  /-- `W(t)`. -/
  | time (t : Time)
deriving DecidableEq, Repr

/-- The two bounded waits on the sensor, with what a timeout raises (R160, R224, R283). -/
inductive Wait where
  /-- `awaitAck(ACK_TMO)`; a timeout raises `kind` at `site`. -/
  | ack (kind : ErrKind) (site : BitVec 3)
  /-- `awaitReady(MEAS_TMO)`; a timeout raises `MeasurementTimeout` at `site`. -/
  | ready (site : BitVec 3)
deriving DecidableEq, Repr

/-- A step of the sequencer that performs a wire event (R120). -/
inductive SeqEvent where
  /-- `emit` of a pin event. -/
  | pin (e : PinEvent)
  /-- `b <- sample()`, shifted into `ACC` (R170). -/
  | sampleBit
  /-- `t <- now(); T0 <- t` (A1 of R160, M1 of R224, R198). -/
  | latchTime
  /-- The sample at the head of a wait loop (A2 of R160, M2 of R224). -/
  | poll (w : Wait)
  /-- The time read of a wait loop (A3 of R160, M3 of R224). -/
  | check (w : Wait)
  /-- The settle loop of `softReset` (R198). -/
  | settle
  /-- The call that begins with `sendCommand` of this command byte: the sequencer's next wire command (R99, R143). -/
  | command (byte : Byte)
deriving DecidableEq, Repr

/-- Which resolution a calibration uses (R225 to R227; R257, R258). -/
inductive ResSource where
  /-- `RESMODE` as it stands when the raw code has been read. -/
  | cached
  /-- The `RES` field of the command. -/
  | given (res : Bool)
deriving DecidableEq, Repr

/-- An assignment of an operation's body or of a procedure. -/
inductive Update where
  /-- `pc <- st`. -/
  | goto (st : SeqState)
  /-- `NEST <- v` (R227). -/
  | nest (v : Bool)
  /-- `ACKCNT <- ACKCNT + 1` (R160). -/
  | countAck
  /-- `if FACE = 1 then WATCH_ARMED <- 1; TIMER_ARMED <- 1` (R224). -/
  | arm
  /-- `STATUS <- s; CKSUM <- c`, the result of `read8` (R190). -/
  | latchStatus
  /-- `ST_VALID <- 1; RESMODE <- s[0]; RES_STALE <- 0` (R190). -/
  | refreshMode
  /-- `STATW <- new; ST_VALID <- 0; RES_STALE <- 1` (R192). -/
  | stageWrite (new : Byte)
  /-- `RES_STALE <- 1` (R198). -/
  | markStale
  /-- `RAW <- read16()` (R223). -/
  | latchRaw
  /-- `TEMP <- calT(RAW, res); T_VALID <- 1; T_SRC <- 0` (R225, R257). -/
  | calTemp (src : ResSource)
  /-- `HUMID <- calRH(RAW, TEMP, res); H_VALID <- 1` (R226, R258). -/
  | calHumid (src : ResSource)
  /-- `READY <- 1` (R199). -/
  | setReady
  /-- `complete` (R228). -/
  | complete
deriving DecidableEq, Repr

/-- One element of the sequencer's position (R31).  R233 says to which step an assignment belongs. -/
inductive Micro where
  /-- A wire event: a step of its own. -/
  | event (e : SeqEvent)
  /-- An assignment between two events: it belongs to the step of the later event. -/
  | update (u : Update)
  /-- The assignment of a procedure's result: it belongs to the step of the earlier event. -/
  | result (u : Update)
  /-- `raise kind(site)`: it belongs to the step of the event that ended the wait. -/
  | raise (kind : ErrKind) (site : BitVec 3)
deriving DecidableEq, Repr

/-- `STEP` (R31): what is left of the operation, and the arguments of the calls its body makes. -/
structure Position where
  /-- The steps and assignments left. -/
  todo : List Micro
  /-- The operand `kind` of the `getStatus` calls of the body (R190). -/
  kind : ErrKind
  /-- The operand `bit` of the `setStatusBit` call of the body (R192). -/
  bit : BitVec 3
  /-- The operand `val` of the `setStatusBit` call of the body (R192). -/
  val : Bool
deriving DecidableEq, Repr

/-- "None pending" (R20, R31): outside an operation. -/
def Position.empty : Position := { todo := [], kind := .handshakeTimeout, bit := 0, val := false }

/-! ## The block (R20) -/

/-- The state of one block instance: exactly the elements of the table of R20, in its order. -/
structure Block where
  /-- `CLK_OUT`. -/
  clkOut : Bool
  /-- `CLK_DIR`. -/
  clkDir : Dir
  /-- `DATA_OUT`. -/
  dataOut : Bool
  /-- `DATA_DIR`. -/
  dataDir : Dir
  /-- `STATE` (R30). -/
  state : SeqState
  /-- `CMDL`, the accepted command word (R31). -/
  cmdl : Half
  /-- `STEP` (R31). -/
  step : Position
  /-- `ACC`, the bits received so far (R170). -/
  acc : Half
  /-- `T0`, `NOW` at the start of a wait (R31). -/
  t0 : Time
  /-- `BUSY` (R33). -/
  busy : Bool
  /-- `DONE` (R33). -/
  done : Bool
  /-- `READY` (R34). -/
  ready : Bool
  /-- `REJECT`, sticky (R35). -/
  reject : Bool
  /-- `IRQ_PEND` (R287). -/
  irqPend : Bool
  /-- `IRQ_EN` (R43). -/
  irqEn : Bool
  /-- `ERR_KIND` (R36). -/
  errKind : ErrKind
  /-- `ERR_SITE` (R36). -/
  errSite : BitVec 3
  /-- `ACKCNT` (R36). -/
  ackCnt : BitVec 3
  /-- `T_VALID` (R37). -/
  tValid : Bool
  /-- `T_SRC` (R37). -/
  tSrc : Bool
  /-- `H_VALID` (R37). -/
  hValid : Bool
  /-- `ST_VALID` (R37). -/
  stValid : Bool
  /-- `RESMODE`, 0 high, 1 low (R38). -/
  resMode : Bool
  /-- `RES_STALE` (R39). -/
  resStale : Bool
  /-- `WATCH_ARMED` (R45). -/
  watchArmed : Bool
  /-- `TIMER_ARMED` (R45). -/
  timerArmed : Bool
  /-- `FACE` (R45). -/
  face : Bool
  /-- `NEST` (R45). -/
  nest : Bool
  /-- `ACK_TMO` (R44). -/
  ackTmo : Half
  /-- `MEAS_TMO` (R44). -/
  measTmo : Half
  /-- `ARG_TEMP`, signed (R46). -/
  argTemp : Half
  /-- `ARG_RAW` (R46). -/
  argRaw : Half
  /-- `STATUS` (R47). -/
  status : Byte
  /-- `CKSUM`, never checked (R174). -/
  cksum : Byte
  /-- `STATW` (R192). -/
  statw : Byte
  /-- `RAW` (R223). -/
  raw : Half
  /-- `TEMP`, signed, centi-degrees (R251). -/
  temp : Word
  /-- `HUMID`, signed, e10 units (R251). -/
  humid : Long
deriving DecidableEq, Repr

/-- The block after `RESET` on a platform with these two reset parameters (R56, R320). -/
def Block.resetWith (ackTmo measTmo : Half) : Block where
  clkOut := false
  clkDir := .inp
  dataOut := false
  dataDir := .inp
  state := .idle
  cmdl := 0
  step := Position.empty
  acc := 0
  t0 := 0
  busy := false
  done := false
  ready := false
  reject := false
  irqPend := false
  irqEn := false
  errKind := .noError
  errSite := 0
  ackCnt := 0
  tValid := false
  tSrc := false
  hValid := false
  stValid := false
  resMode := false
  resStale := false
  watchArmed := false
  timerArmed := false
  face := false
  nest := false
  ackTmo := ackTmo
  measTmo := measTmo
  argTemp := 0
  argRaw := 0
  status := 0
  cksum := 0
  statw := 0
  raw := 0
  temp := 0
  humid := 0

/-- The block after `RESET` (R56, R320), with the two OPEN parameters at the values `Config` names. -/
def Block.reset : Block := Block.resetWith Config.ackTmoReset Config.measTmoReset

/-! ## The environment (R14, R24 to R26, R57) -/

/-- One access of the `HOST` agent to the register port (R40). -/
inductive HostAccess where
  /-- `x[i]`. -/
  | read (reg : Nat)
  /-- `x[i] <- v`. -/
  | write (reg : Nat) (v : Word)
deriving DecidableEq, Repr

/-- One step of one agent (R14), or the `RESET` event. -/
inductive Act where
  /-- `SEQ`: the sequencer, if it has an enabled step (R32). -/
  | seq
  /-- `HOST`: one register access. -/
  | host (a : HostAccess)
  /-- `SENSOR`: `SENSOR_PULL` becomes this. -/
  | sensor (pull : Bool)
  /-- `TIME`: this many increments of `NOW`, one after the other. -/
  | tick (n : Time)
  /-- `RESET` (R320). -/
  | reset
deriving DecidableEq, Repr

/-- What stands around the block.  `sensorPull` and `now` are the spec's environment inputs; the other fields are the
model's own (assumption log 2, 3 and 4). -/
structure Env where
  /-- `SENSOR_PULL` (R24). -/
  sensorPull : Bool
  /-- `NOW` (R25). -/
  now : Time
  /-- The agents' steps to come, in the one total order of R74; what comes after its end is unknown. -/
  script : List Act
  /-- The data the last host read returned (R26, R40). -/
  rdata : Word
  /-- The wire event of the last step, if it performed one (R11). -/
  event : Option WireEvent
  /-- How many free values have been used. -/
  free : Nat
deriving DecidableEq, Repr

/-- The environment a run starts from: nothing scripted, nothing read.  DESIGN CHOICE, unsafe (assumption log 4). -/
def Env.reset : Env where
  sensorPull := false
  now := 0
  script := []
  rdata := 0
  event := none
  free := 0

/-! ## The machine -/

/-- The block and what stands around it. -/
structure State where
  /-- The block (R20). -/
  blk : Block
  /-- Its environment (R14, R57). -/
  env : Env
deriving DecidableEq, Repr

/-- Right after reset (R56, R320). -/
def State.reset : State := { blk := Block.reset, env := Env.reset }

/-- Why the machine stops with a fault. -/
inductive Fault where
  /-- Raised by a sample while `DATA_DIR = OUT`.  R124 requires `DATA_DIR = IN` of every sample and gives the event no
  effect otherwise ("a model may assert it").  Safe: the model stops, and no run from reset reaches it. -/
  | sampleWhileDriven
deriving DecidableEq, Repr

/-- Why the model declines to go on. -/
inductive Refusal where
  /-- Raised by an arm of `exec` whose instruction has no meaning yet; no arm does.  Safe: the model stops. -/
  | notModelled (mnemonic : String)
deriving DecidableEq, Repr

end Sys2Proof.Machine
end

