-- ==== Sys2Proof/Machine/Bus.lean ====
section
/-! DEFINITION. The procedures of the bus (40_bus_primitives.md, 41_frame_encoder.md, 42_handshake.md,
43_result_decoder.md), each as the list of steps and assignments its rule writes down. -/

namespace Sys2Proof.Machine

/-- A list of pin events as steps of the sequencer. -/
def emits (es : List PinEvent) : List Micro := es.map fun e => .event (.pin e)

/-! ## Bus primitives -/

/-- `pulse(n)` (R127). -/
def pulse : Nat → List PinEvent
  | 0 => []
  | n + 1 => .clk true :: .clk false :: pulse n

/-- `setLine(DATA, direction)` (R126): to an input, or to an output at a level. -/
def setLine : Dir → Bool → PinEvent
  | .inp, _ => .release
  | .out, v => .data v

/-! ## Frame encoder -/

/-- `START_SEQ`: `D1 C1 D0 C0 C1 D1 C0 D0` (R141). -/
def startSeq : List PinEvent :=
  [.data true, .clk true, .data false, .clk false, .clk true, .data true, .clk false, .data false]

/-- One bit of `sendByte` (R142). -/
def sendBit (v : Bool) : List PinEvent := .data v :: pulse 1

/-- The bits of a byte in the order of the wire, bit 7 first (R64). -/
def wireBits (b : Byte) : List Bool :=
  [b.getLsbD 7, b.getLsbD 6, b.getLsbD 5, b.getLsbD 4, b.getLsbD 3, b.getLsbD 2, b.getLsbD 1, b.getLsbD 0]

/-- `sendByte(b)` (R142). -/
def sendByte (b : Byte) : List PinEvent := (wireBits b).flatMap sendBit

/-- The events of `sendCommand` of the command byte `b` (R143). -/
def sendFrame (b : Byte) : List PinEvent := startSeq ++ sendByte b

/-- `sendCommand(cmd5)` (R143). -/
def sendCommand (cmd : BitVec 5) : List PinEvent := sendFrame (commandByte cmd)

/-! ## Handshake -/

/-- `awaitAck(ACK_TMO)` and the raise of its caller (R160 to R162, R165).  A poll that sees DATA low goes on with what
follows it (A4 to A6); a time read past the bound replaces it all (A7). -/
def awaitAck (kind : ErrKind) (site : BitVec 3) : List Micro :=
  [.event (.pin .release), .event .latchTime, .event (.poll (.ack kind site))]
    ++ emits (pulse 1 ++ [.data false]) ++ [.update .countAck]

/-- The steps of a handshake whose bound has passed: A7, then the caller's `raise` (R160, R162, R282). -/
def ackFailed (kind : ErrKind) (site : BitVec 3) : List Micro :=
  [.event (.pin (.data false)), .raise kind site]

/-! ## Result decoder -/

/-- One bit of `readByte`: sample, then pulse (R170). -/
def readBit : List Micro := .event .sampleBit :: emits (pulse 1)

/-- `readByte()` (R170). -/
def readByte : List Micro := .event (.pin .release) :: (List.replicate 8 readBit).flatten

/-- `ackByte()` (R171). -/
def ackByte : List Micro := emits (.data false :: pulse 1)

/-- `read8()` and the assignment of its result (R172, R190). -/
def read8 : List Micro := readByte ++ ackByte ++ readByte ++ ackByte ++ [.result .latchStatus]

/-- `read16()` and the assignment of its result (R173, R223). -/
def read16 : List Micro := readByte ++ ackByte ++ readByte ++ emits [.data true] ++ [.result .latchRaw]

/-! ## Measurement wait -/

/-- `awaitReady(MEAS_TMO)` and the raise of its caller (R224). -/
def awaitReady (site : BitVec 3) : List Micro :=
  [.event (.pin .release), .event .latchTime, .update .arm, .event (.poll (.ready site))]

end Sys2Proof.Machine
end

