-- ==== Sys2Proof/Machine/Calibration.lean ====
section
/-! DEFINITION. The calibration functions (46_calibration.md): pure, over the integers, exact (rules R251 and R256). -/

namespace Sys2Proof.Machine

/-- `calT(raw, res)` as an integer, centi-degrees (R252). -/
def calTInt (raw : Half) (res : Bool) : Int :=
  Params.romAt 0 + Params.romRes 1 res * (raw.toNat : Int)

/-- `rhLin(raw, res)` as an integer, e10 units (R253). -/
def rhLinInt (raw : Half) (res : Bool) : Int :=
  Params.romAt 3 + Params.romRes 4 res * (raw.toNat : Int) + Params.romRes 6 res * (raw.toNat : Int) * (raw.toNat : Int)

/-- `calRH(raw, tc, res)` as an integer, e10 units (R254). -/
def calRHInt (raw : Half) (tc : Int) (res : Bool) : Int :=
  (tc - Params.romAt 11) * (Params.romAt 8 + Params.romRes 9 res * (raw.toNat : Int)) * 1000 + rhLinInt raw res

/-- `calT` as `TEMP` holds it (R251, R252). -/
def calT (raw : Half) (res : Bool) : Word := BitVec.ofInt 32 (calTInt raw res)

/-- `calRH` as `HUMID` holds it, of a temperature as `TEMP` holds it (R251, R254). -/
def calRH (raw : Half) (tc : Word) (res : Bool) : Long := BitVec.ofInt 64 (calRHInt raw tc.toInt res)

end Sys2Proof.Machine
end

