-- ==== Sys2Proof/Machine/Flags.lean ====
section
/-! DEFINITION. Every flag and code as software sees it: the codes of the enumerations, the status flags of the sensor,
the line levels, the port outputs, and the packed registers `STAT`, `SENS`, `CTRL` and `PINS`. -/

namespace Sys2Proof.Machine

/-! ## Codes -/

/-- 0 = `IN`, 1 = `OUT` (R20). -/
def Dir.bit : Dir → Bool
  | .inp => false
  | .out => true

/-- The 3-bit code of `STATE` (R30). -/
def SeqState.code : SeqState → BitVec 3
  | .idle => 0
  | .commandSent => 1
  | .awaitingAck => 2
  | .awaitingMeasurement => 3
  | .decoding => 4
  | .done => 5
  | .failed => 6

/-- The 2-bit code of `ERR_KIND` (R281). -/
def ErrKind.code : ErrKind → BitVec 2
  | .noError => 0
  | .handshakeTimeout => 1
  | .measurementTimeout => 2
  | .constructionFailure => 3

/-! ## Decoded status flags (R47, R92, R191) -/

/-- The record `getStatus()` returns (R191): a view of `STATUS`, no state. -/
structure StatusFlags where
  /-- `LOWV`, bit 6. -/
  lowVoltage : Bool
  /-- `HEATER`, bit 2. -/
  heater : Bool
  /-- `NO_OTP`, bit 1. -/
  noOtpReload : Bool
  /-- 8 when bit 0 is set, else 12. -/
  rhResolutionBits : Nat
  /-- 12 when bit 0 is set, else 14. -/
  tempResolutionBits : Nat
deriving DecidableEq, Repr

/-- The flags of a status byte (R92, R191). -/
def statusFlags (s : Byte) : StatusFlags where
  lowVoltage := s.getLsbD 6
  heater := s.getLsbD 2
  noOtpReload := s.getLsbD 1
  rhResolutionBits := if s.getLsbD 0 then 8 else 12
  tempResolutionBits := if s.getLsbD 0 then 12 else 14

/-! ## Line levels (R22, R23) -/

/-- `L_CLK` (R22). -/
def Block.lineClk (b : Block) : Bool :=
  match b.clkDir with
  | .out => b.clkOut
  | .inp => true

/-- The block drives DATA high and the sensor pulls it low (R23). -/
def Block.contended (b : Block) (pull : Bool) : Bool := b.dataDir.bit && b.dataOut && pull

/-- `L_DATA` (R22); `free` is the level under contention, which no rule fixes (R23). -/
def Block.lineData (b : Block) (pull free : Bool) : Bool :=
  match b.dataDir with
  | .out => if b.contended pull then free else b.dataOut
  | .inp => !pull

/-! ## Port outputs (R26, R287) -/

/-- What the block puts on `clk_pad`: a driven level, or nothing (released) (R26). -/
def Block.clkPad (b : Block) : Option Bool :=
  match b.clkDir with
  | .out => some b.clkOut
  | .inp => none

/-- What the block puts on `data_pad` (R26). -/
def Block.dataPad (b : Block) : Option Bool :=
  match b.dataDir with
  | .out => some b.dataOut
  | .inp => none

/-- The line `irq` (R287). -/
def Block.irq (b : Block) : Bool := b.irqPend && b.irqEn

/-! ## Packed registers -/

/-- `STAT` (R42), bit 31 first. -/
def Block.stat (b : Block) : Word :=
  0#6 ++ BitVec.ofBool b.nest ++ BitVec.ofBool b.face ++ BitVec.ofBool b.timerArmed ++ BitVec.ofBool b.watchArmed
    ++ BitVec.ofBool b.resStale ++ BitVec.ofBool b.resMode ++ BitVec.ofBool b.stValid ++ BitVec.ofBool b.hValid
    ++ BitVec.ofBool b.tSrc ++ BitVec.ofBool b.tValid ++ b.ackCnt ++ b.errSite ++ b.errKind.code ++ b.state.code
    ++ BitVec.ofBool b.irqPend ++ BitVec.ofBool b.reject ++ BitVec.ofBool b.ready ++ BitVec.ofBool b.done
    ++ BitVec.ofBool b.busy

/-- `CTRL` as read (R43). -/
def Block.ctrl (b : Block) : Word := 0#29 ++ BitVec.ofBool b.irqEn ++ 0#2

/-- `SENS` (R40). -/
def Block.sens (b : Block) : Word := 0#8 ++ b.statw ++ b.cksum ++ b.status

/-- `PINS` (R52); `free` is the level of DATA under contention (R23). -/
def Block.pinsReg (b : Block) (pull free : Bool) : Word :=
  0#26 ++ BitVec.ofBool b.lineClk ++ BitVec.ofBool (b.lineData pull free) ++ BitVec.ofBool b.dataDir.bit
    ++ BitVec.ofBool b.dataOut ++ BitVec.ofBool b.clkDir.bit ++ BitVec.ofBool b.clkOut

end Sys2Proof.Machine
end

