-- ==== Sys2Proof/Machine/Operands.lean ====
section
/-! DEFINITION. How operands are formed: elapsed time, the received bit, the status byte to write, the supplied
temperature, the resolution a calibration uses. -/

namespace Sys2Proof.Machine

/-- `elapsed(t) = (t - T0) mod 2^32`, modulo the width of the time base (R9, R12, R25). -/
def elapsed (t t0 : Time) : Nat := (t - t0).toNat

/-- `{ ACC[14:0], b }`: shift a received bit in at the low end (R170). -/
def shiftIn (acc : Half) (b : Bool) : Half := acc.extractLsb' 0 15 ++ BitVec.ofBool b

/-- `newStatus(cur, bit, val)`, the byte a status write sends (R98, R193). -/
def newStatus (cur : Byte) (bit : BitVec 3) (val : Bool) : Byte :=
  if val then cur ||| (1#8 <<< bit.toNat) else cur &&& ~~~(1#8 <<< bit.toNat) &&& 0x07#8

/-- `sext_32(ARG_TEMP)` (R107). -/
def suppliedTemp (argTemp : Half) : Word := argTemp.signExtend 32

/-- The resolution bit a calibration reads (R225 to R227, R257, R258). -/
def ResSource.bit (src : ResSource) (b : Block) : Bool :=
  match src with
  | .cached => b.resMode
  | .given res => res

/-- The bound of a wait, in ticks (R160, R224). -/
def Wait.bound (w : Wait) (b : Block) : Nat :=
  match w with
  | .ack _ _ => b.ackTmo.toNat
  | .ready _ => b.measTmo.toNat

/-- The running operation is a `READ_TEMP` (R229), told by `CMDL`. -/
def Block.isReadTemp (b : Block) : Bool := opcOf b.cmdl == 0x9#4

end Sys2Proof.Machine
end

