-- ==== Sys2Proof/Machine/Ops.lean ====
section
/-! DEFINITION. The shared operations: acceptance, completion, failure and the return from it (45_measurement.md rules
R222, R228, R229; 60_exceptions.md rules R284, R289), the assignments, and one step of the sequencer (rules R32, R120
to R125, R233). -/

namespace Sys2Proof.Machine

/-- What a step answers. -/
abbrev Result := Host.Outcome State Fault Refusal

/-! ## Taking an error, completing, returning -/

/-- `fail(Kind, site)`: what `raise` does (R229, R284). -/
def Block.fail (b : Block) (kind : ErrKind) (site : BitVec 3) : Block :=
  { b with
    errKind := kind
    errSite := site
    hValid := false
    tValid := b.tValid && !(b.isReadTemp || b.nest)
    watchArmed := false
    timerArmed := false
    nest := false
    state := .failed
    busy := false
    done := true
    irqPend := b.irqPend || b.face
    step := Position.empty }

/-- `complete` (R228). -/
def Block.complete (b : Block) : Block :=
  { b with
    state := .done
    busy := false
    done := true
    irqPend := b.irqPend || b.face
    step := Position.empty }

/-- `ACK_DONE`, the return from a terminal state (R43, R289). -/
def Block.ackDone (b : Block) : Block :=
  { b with
    done := false
    irqPend := false
    state :=
      match b.state with
      | .done => .idle
      | .failed => .idle
      | st => st }

/-! ## Acceptance and refusal -/

/-- The operation takes its compensation temperature from `ARG_TEMP` (R222). -/
def takesArgTemp (word : Half) : Bool := (opcOf word == 0xA#4 && tvOf word) || opcOf word == 0xC#4

/-- The operation takes its raw code from `ARG_RAW` (R222). -/
def takesArgRaw (word : Half) : Bool := opcOf word == 0xB#4 || opcOf word == 0xC#4

/-- The operation constructs the session (R222). -/
def isConstruction (word : Half) : Bool := opcOf word == 0x1#4

/-- `accept(word)` (R222), with the operation's body and the state its first `pc <-` names. -/
def Block.accept (b : Block) (word : Half) (body : Position) (first : SeqState) : Block :=
  { b with
    cmdl := word
    face := faceOf word
    busy := true
    done := false
    irqPend := false
    errKind := .noError
    errSite := 0
    ackCnt := 0
    tValid := takesArgTemp word
    tSrc := takesArgTemp word
    hValid := false
    stValid := false
    nest := false
    watchArmed := false
    timerArmed := false
    ready := b.ready && !isConstruction word
    resMode := b.resMode && !isConstruction word
    temp := if takesArgTemp word then suppliedTemp b.argTemp else b.temp
    raw := if takesArgRaw word then b.argRaw else b.raw
    step := body
    state := first }

/-- `REJECT <- 1` and nothing else: a refused host write (R35, R41, R292). -/
def State.refuseWrite (s : State) : State := { s with blk := { s.blk with reject := true } }

/-- A legal command word written to `CMD` (R41, R101): accepted when the block is idle and, where the operation uses the
bus, constructed; refused otherwise. -/
def issue (i : Instr) (needsReady : Bool) (first : SeqState) (body : Position) (s : State) : Result :=
  if s.blk.busy || (needsReady && !s.blk.ready) then .next s.refuseWrite
  else .next { s with blk := s.blk.accept (encode i) body first }

/-! ## Assignments -/

/-- The assignments of the operations' bodies. -/
def Block.apply (b : Block) : Update → Block
  | .goto st => { b with state := st }
  | .nest v => { b with nest := v }
  | .countAck => { b with ackCnt := b.ackCnt + 1 }
  | .arm => { b with watchArmed := b.watchArmed || b.face, timerArmed := b.timerArmed || b.face }
  | .latchStatus => { b with status := b.acc.extractLsb' 8 8, cksum := b.acc.extractLsb' 0 8 }
  | .refreshMode => { b with stValid := true, resMode := b.status.getLsbD 0, resStale := false }
  | .stageWrite new => { b with statw := new, stValid := false, resStale := true }
  | .markStale => { b with resStale := true }
  | .latchRaw => { b with raw := b.acc }
  | .calTemp src => { b with temp := calT b.raw (src.bit b), tValid := true, tSrc := false }
  | .calHumid src => { b with humid := calRH b.raw b.temp (src.bit b), hValid := true }
  | .setReady => { b with ready := true }
  | .complete => b.complete

/-- The position moves on to `todo` (R32). -/
def Block.moveTo (b : Block) (todo : List Micro) : Block := { b with step := { b.step with todo := todo } }

/-- The assignments before the next event, with the position at that event or at the end of the body (R233). -/
def Block.lead (b : Block) : List Micro → Block
  | [] => b.moveTo []
  | .event e :: rest => b.moveTo (.event e :: rest)
  | .update u :: rest => (b.apply u).lead rest
  | .result u :: rest => (b.apply u).lead rest
  | .raise kind site :: _ => b.fail kind site

/-- A wire event is still to come. -/
def hasEvent : List Micro → Bool
  | [] => false
  | .event _ :: _ => true
  | .update _ :: rest => hasEvent rest
  | .result _ :: rest => hasEvent rest
  | .raise _ _ :: rest => hasEvent rest

/-- The assignments that belong to the event just performed: results, a `raise`, and everything after the last event of
the body (R233). -/
def Block.trail (b : Block) : List Micro → Block
  | .result u :: rest => (b.apply u).trail rest
  | .raise kind site :: _ => b.fail kind site
  | todo => if hasEvent todo then b.moveTo todo else b.lead todo

/-! ## Wire events (R121 to R125) -/

/-- The effect of a pin event (R121 to R123). -/
def Block.drive (b : Block) : PinEvent → Block
  | .clk v => { b with clkOut := v, clkDir := .out }
  | .data v => { b with dataOut := v, dataDir := .out }
  | .release => { b with dataDir := .inp }

/-- The end of a wait with DATA seen low: `awaitReady` disarms (R224, R237), `awaitAck` has only its remaining events. -/
def Block.granted (b : Block) : Wait → Block
  | .ack _ _ => b
  | .ready _ => { b with watchArmed := false, timerArmed := false }

/-- What is left of the operation once the bound of a wait has passed (R160 A7, R223, R224). -/
def timedOut : Wait → List Micro
  | .ack kind site => ackFailed kind site
  | .ready site => [.raise .measurementTimeout site]

/-- The step that performs wire event `ev`: the block becomes `b` with its position at `todo`, then come the
assignments that belong to this step. -/
def State.performed (s : State) (b : Block) (ev : WireEvent) (todo : List Micro) : Result :=
  .next { blk := b.trail todo, env := { s.env with event := some ev } }

/-- The step that performs the first of a list of pin events; the others go before `rest`. -/
def State.performPins (s : State) (rest : List Micro) : List PinEvent → Result
  | [] => .next { s with blk := s.blk.trail rest }
  | e :: es => s.performed (s.blk.drive e) (.pin e) (emits es ++ rest)

/-- A sample (R124): the level of DATA, an input, with the step that uses it. -/
def State.sampled (s : State) (use : Bool → Result) : Result :=
  match s.blk.dataDir with
  | .inp => use (!s.env.sensorPull)
  | .out => .fault .sampleWhileDriven

/-- One wire event of the sequencer, `rest` being what follows it (R120 to R125, R160, R170, R198, R224). -/
def State.perform (s : State) (rest : List Micro) : SeqEvent → Result
  | .pin e => s.performed (s.blk.drive e) (.pin e) rest
  | .sampleBit => s.sampled fun b => s.performed { s.blk with acc := shiftIn s.blk.acc b } (.sample b) rest
  | .latchTime => s.performed { s.blk with t0 := s.env.now } (.time s.env.now) rest
  | .poll w => s.sampled fun b =>
      if b then s.performed s.blk (.sample b) (.event (.check w) :: rest)
      else s.performed (s.blk.granted w) (.sample b) rest
  | .check w =>
      if elapsed s.env.now s.blk.t0 ≥ w.bound s.blk then s.performed s.blk (.time s.env.now) (timedOut w)
      else s.performed s.blk (.time s.env.now) (.event (.poll w) :: rest)
  | .settle =>
      if elapsed s.env.now s.blk.t0 ≥ Params.settleMs then s.performed s.blk (.time s.env.now) rest
      else s.performed s.blk (.time s.env.now) (.event .settle :: rest)
  | .command byte => s.performPins rest (sendFrame byte)

/-- One step of the sequencer (R32, R233): the assignments before the next event, that event, and the assignments that
belong to it; a body without events in one step. -/
def advance (s : State) : Result :=
  match (s.blk.lead s.blk.step.todo).step.todo with
  | .event e :: rest => { s with blk := s.blk.lead s.blk.step.todo }.perform rest e
  | _ => .next { s with blk := s.blk.lead s.blk.step.todo }

/-- The sequencer begins a wire command: its transaction goes before what is left of the operation, and the step
performs its first event (R95, R143, R233). -/
def beginTransaction (transaction : List Micro) (s : State) : Result :=
  advance { s with blk := s.blk.moveTo (transaction ++ s.blk.step.todo) }

end Sys2Proof.Machine
end

