-- ==== Sys2Proof/Machine/Status.lean ====
section
/-! DEFINITION. The host operations of the status manager (44_status_manager.md): the bodies of rules R199 to R203 and
R194 to R197, and the step that accepts or refuses each. -/

namespace Sys2Proof.Machine

/-- `call getStatus(kind)`: the wire command; `kind` stands in the position (R190). -/
def callGetStatus : List Micro := [.event (.command (commandByte Params.cmdReadStatus))]

/-- `call setStatusBit(bit, val)`: a status read, then a status write; the operands stand in the position (R192). -/
def callSetStatusBit : List Micro := callGetStatus ++ [.event (.command (commandByte Params.cmdWriteStatus))]

/-- `call softReset()` (R198). -/
def callSoftReset : List Micro := [.event (.command (commandByte Params.cmdSoftReset))]

/-- The body of an operation whose calls are `calls`, with the operands of its `getStatus` and `setStatusBit` calls. -/
def bodyOf (calls : List Micro) (kind : ErrKind := .handshakeTimeout) (bit : BitVec 3 := 0) (val : Bool := false) :
    Position :=
  { todo := calls ++ [.update .complete], kind := kind, bit := bit, val := val }

/-- `setStatusBit(bit, val); getStatus(HandshakeTimeout)`, the body of the four wrappers (R205). -/
def wrapperBody (bit : BitVec 3) (val : Bool) : Position :=
  bodyOf (callSetStatusBit ++ callGetStatus) (bit := bit) (val := val)

/-- `INIT`: `construct()` (R199, R203). -/
def execInit (s : State) : Result :=
  issue .init false .commandSent
    (bodyOf (callSoftReset ++ callGetStatus ++ [.update .setReady]) (kind := .constructionFailure)) s

/-- `SOFT_RESET` (R202). -/
def execSoftReset (s : State) : Result := issue .softReset true .commandSent (bodyOf callSoftReset) s

/-- `GET_STATUS` (R200). -/
def execGetStatus (s : State) : Result := issue .getStatus true .commandSent (bodyOf callGetStatus) s

/-- `SET_STATUS_BIT` (R201). -/
def execSetStatusBit (bit : Nat) (val : Bool) (s : State) : Result :=
  issue (.setStatusBit bit val) true .commandSent
    (bodyOf callSetStatusBit (bit := BitVec.ofNat 3 bit) (val := val)) s

/-- `SET_LOW_RES`: `setLowRes()` (R194). -/
def execSetLowRes (s : State) : Result := issue .setLowRes true .commandSent (wrapperBody 0 true) s

/-- `SET_HIGH_RES`: `setHighRes()` (R195). -/
def execSetHighRes (s : State) : Result := issue .setHighRes true .commandSent (wrapperBody 0 false) s

/-- `SET_HEATER`: `setHeater(b)` (R196). -/
def execSetHeater (val : Bool) (s : State) : Result :=
  issue (.setHeater val) true .commandSent (wrapperBody 2 val) s

/-- `SET_OTP_RELOAD`: `setOtpReload(b)` (R197). -/
def execSetOtpReload (val : Bool) (s : State) : Result :=
  issue (.setOtpReload val) true .commandSent (wrapperBody 1 (val ^^ Params.otpWrapperInvert)) s

end Sys2Proof.Machine
end

