-- ==== Sys2Proof/Machine/Measurement.lean ====
section
/-! DEFINITION. The two read operations (45_measurement.md rules R225 to R227) and the two calibration operations
(46_calibration.md rules R257 and R258). -/

namespace Sys2Proof.Machine

/-- `call measure(TEMP)` (R223). -/
def callMeasureTemp : List Micro := [.event (.command (commandByte Params.cmdMeasureTemp))]

/-- `call measure(RH)` (R223). -/
def callMeasureRh : List Micro := [.event (.command (commandByte Params.cmdMeasureRh))]

/-- The body of `READ_TEMP` (R225). -/
def readTempBody : Position := bodyOf (callMeasureTemp ++ [.update (.calTemp .cached)])

/-- The body of `READ_HUMID` with `TV = 1` (R226); the temperature was copied at acceptance. -/
def readHumidSuppliedBody : Position := bodyOf (callMeasureRh ++ [.update (.calHumid .cached)])

/-- The body of `READ_HUMID` with `TV = 0`: the nested temperature measurement first (R227). -/
def readHumidNestedBody : Position :=
  bodyOf ([.update (.nest true)] ++ callMeasureTemp ++ [.update (.calTemp .cached), .update (.nest false)]
    ++ callMeasureRh ++ [.update (.calHumid .cached)])

/-- `READ_TEMP` (R225). -/
def execReadTemp (face : Bool) (s : State) : Result := issue (.readTemp face) true .commandSent readTempBody s

/-- `READ_HUMID` (R226, R227): `TV` selects the body (R239). -/
def execReadHumid (face tv : Bool) (s : State) : Result :=
  issue (.readHumid face tv) true .commandSent (if tv then readHumidSuppliedBody else readHumidNestedBody) s

/-- `CAL_TEMP` (R257): no wire event, one step after acceptance. -/
def execCalTemp (res : Bool) (s : State) : Result :=
  issue (.calTemp res) false .decoding (bodyOf [.update (.calTemp (.given res))]) s

/-- `CAL_HUMID` (R258): no wire event, one step after acceptance. -/
def execCalHumid (res : Bool) (s : State) : Result :=
  issue (.calHumid res) false .decoding (bodyOf [.update (.calHumid (.given res))]) s

end Sys2Proof.Machine
end

