-- ==== Sys2Proof/Machine/Wire.lean ====
section
/-! DEFINITION. The five wire commands (30_encoding.md rules R95 and R99): each is the transaction the sequencer runs
when it sends that command byte, with the assignments of its rule.  The meaning of the command is the step that begins
the transaction; every later event of it is a step of its own (00_scope.md rule R13, 45_measurement.md rule R233). -/

namespace Sys2Proof.Machine

/-- Transaction "status read" and what `getStatus(kind)` does with it (R190). -/
def statusRead (kind : ErrKind) : List Micro :=
  .update (.goto .commandSent) :: emits (sendCommand Params.cmdReadStatus)
    ++ .update (.goto .awaitingAck) :: awaitAck kind 1
    ++ .update (.goto .decoding) :: read8 ++ [Micro.update .refreshMode]

/-- Transaction "status write" of the byte `new`: the second half of `setStatusBit` (R192). -/
def statusWrite (new : Byte) : List Micro :=
  .update (.goto .commandSent) :: emits (sendCommand Params.cmdWriteStatus)
    ++ .update (.goto .awaitingAck) :: awaitAck .handshakeTimeout 2
    ++ .update (.goto .commandSent) :: .update (.stageWrite new) :: emits (sendByte new)
    ++ .update (.goto .awaitingAck) :: awaitAck .handshakeTimeout 3

/-- Transaction "measurement": `measure` with its command and sites (R223). -/
def measurement (cmd : BitVec 5) (siteA siteM : BitVec 3) : List Micro :=
  .update (.goto .commandSent) :: emits (sendCommand cmd)
    ++ .update (.goto .awaitingAck) :: awaitAck .handshakeTimeout siteA
    ++ .update (.goto .awaitingMeasurement) :: awaitReady siteM
    ++ .update (.goto .decoding) :: read16

/-- Transaction "soft reset" with the settle delay (R198). -/
def softResetAndSettle : List Micro :=
  .update (.goto .commandSent) :: emits (sendCommand Params.cmdSoftReset)
    ++ .update .markStale :: .event .latchTime :: [Micro.event .settle]

/-- `W.MEASURE_TEMP` (R223, sites 4 and 6). -/
def execWMeasureTemp (s : State) : Result := beginTransaction (measurement Params.cmdMeasureTemp 4 6) s

/-- `W.MEASURE_RH` (R223, sites 5 and 7). -/
def execWMeasureRh (s : State) : Result := beginTransaction (measurement Params.cmdMeasureRh 5 7) s

/-- `W.READ_STATUS` (R190); the operation running says what a missed handshake raises (R286). -/
def execWReadStatus (s : State) : Result := beginTransaction (statusRead s.blk.step.kind) s

/-- `W.WRITE_STATUS` (R192): `new` is computed here, from the byte just read and the operation's operands. -/
def execWWriteStatus (s : State) : Result :=
  beginTransaction (statusWrite (newStatus s.blk.status s.blk.step.bit s.blk.step.val)) s

/-- `W.SOFT_RESET` (R198). -/
def execWSoftReset (s : State) : Result := beginTransaction softResetAndSettle s

end Sys2Proof.Machine
end

