-- ==== Sys2Proof/Machine/Dispatch.lean ====
section
/-! DEFINITION. The meaning of each instruction. -/

namespace Sys2Proof.Machine

def exec (i : Instr) (s : State) : Host.Outcome State Fault Refusal :=
  match i with
  | .init => Sys2Proof.Machine.execInit s
  | .softReset => Sys2Proof.Machine.execSoftReset s
  | .getStatus => Sys2Proof.Machine.execGetStatus s
  | .setStatusBit bit val => Sys2Proof.Machine.execSetStatusBit bit val s
  | .setLowRes => Sys2Proof.Machine.execSetLowRes s
  | .setHighRes => Sys2Proof.Machine.execSetHighRes s
  | .setHeater val => Sys2Proof.Machine.execSetHeater val s
  | .setOtpReload val => Sys2Proof.Machine.execSetOtpReload val s
  | .readTemp face => Sys2Proof.Machine.execReadTemp face s
  | .readHumid face tv => Sys2Proof.Machine.execReadHumid face tv s
  | .calTemp res => Sys2Proof.Machine.execCalTemp res s
  | .calHumid res => Sys2Proof.Machine.execCalHumid res s
  | .wMeasureTemp => Sys2Proof.Machine.execWMeasureTemp s
  | .wMeasureRh => Sys2Proof.Machine.execWMeasureRh s
  | .wReadStatus => Sys2Proof.Machine.execWReadStatus s
  | .wWriteStatus => Sys2Proof.Machine.execWWriteStatus s
  | .wSoftReset => Sys2Proof.Machine.execWSoftReset s

end Sys2Proof.Machine
end

