-- ==== Sys2Proof/Machine/Port.lean ====
section
/-! DEFINITION. The host register port (10_state.md rules R40 to R53): what a read of each register returns, and what a
write does to every register but `CMD`, whose writes are commands (`Sys2Proof.Machine.fetch`). -/

namespace Sys2Proof.Machine

/-- The contents of register `r` (R40 to R53); `free` is the level of DATA under contention (R23). -/
def State.readReg (s : State) (r : Nat) (free : Bool) : Word :=
  match r with
  | 0 => s.blk.cmdl.setWidth 32
  | 1 => s.blk.stat
  | 2 => s.blk.ctrl
  | 3 => s.blk.ackTmo.setWidth 32
  | 4 => s.blk.measTmo.setWidth 32
  | 5 => s.blk.argTemp.setWidth 32
  | 6 => s.blk.argRaw.setWidth 32
  | 7 => s.blk.sens
  | 8 => s.blk.raw.setWidth 32
  | 9 => s.blk.temp
  | 10 => s.blk.humid.extractLsb' 0 32
  | 11 => s.blk.humid.extractLsb' 32 32
  | 12 => s.blk.pinsReg s.env.sensorPull free
  | _ => 0

/-- A read of register 12 looks at DATA under contention, where its level is a free value (R23, R52). -/
def State.readsContention (s : State) (r : Nat) : Bool := r == 12 && s.blk.contended s.env.sensorPull

/-- The `HOST` agent reads register `r` (R40): no element of the block changes. -/
def hostRead (r : Nat) (s : State) : State :=
  { s with env := { s.env with
      rdata := s.readReg r (Config.contendedLevel s.env.free)
      free := if s.readsContention r then s.env.free + 1 else s.env.free } }

/-- A write of `CTRL`: `IRQ_EN`, then `CLR_REJECT`, then `ACK_DONE` (R43). -/
def Block.writeCtrl (b : Block) (v : Word) : Block :=
  if v.getLsbD 0 && !b.busy then { b with irqEn := v.getLsbD 2, reject := b.reject && !v.getLsbD 1 }.ackDone
  else { b with irqEn := v.getLsbD 2, reject := b.reject && !v.getLsbD 1 }

/-- A write of a timeout or operand register: taken while no operation runs, refused otherwise (R44, R46, R338). -/
def State.writeOperand (s : State) (b : Block) : State := if s.blk.busy then s.refuseWrite else { s with blk := b }

/-- The `HOST` agent writes `v` to register `r`, not `CMD` (R42 to R53).  Read-only and absent registers refuse. -/
def hostWrite (r : Nat) (v : Word) (s : State) : State :=
  match r with
  | 2 => { s with blk := s.blk.writeCtrl v }
  | 3 => s.writeOperand { s.blk with ackTmo := v.setWidth 16 }
  | 4 => s.writeOperand { s.blk with measTmo := v.setWidth 16 }
  | 5 => s.writeOperand { s.blk with argTemp := v.setWidth 16 }
  | 6 => s.writeOperand { s.blk with argRaw := v.setWidth 16 }
  | _ => s.refuseWrite

/-! ## The host's notation (R105) -/

/-- `<MNEMONIC> [field=value ...]`: `WR CMD, <word>` (R105). -/
def command (i : Instr) : Act := .host (.write 0 ((encode i).setWidth 32))

/-- `ACK`: `WR CTRL, (IRQ_EN << 2) | 1` (R105). -/
def acknowledge (irqEn : Bool) : Act := .host (.write 2 (0#29 ++ BitVec.ofBool irqEn ++ 0b01#2))

/-- One `RD STAT` of the loop `WAIT` (R105). -/
def pollStat : Act := .host (.read 1)

end Sys2Proof.Machine
end

