-- ==== Sys2Proof/Machine/Fetch.lean ====
section
/-! DEFINITION. Which agent moves, and the instruction its move brings, if any (00_scope.md rules R13 and R14,
20_memory.md rules R74 and R77).  An instruction comes in one of two ways: the host writes a legal word to `CMD`, or the
sequencer reaches a call that sends a command byte. -/

namespace Sys2Proof.Machine

/-- What the next move is. -/
inductive Fetched where
  /-- An instruction, to be executed in this state. -/
  | run (i : Instr) (s : State)
  /-- A move that is no instruction, with its outcome. -/
  | other (r : Result)

/-- The next move of the script is taken off it; a step performs no wire event unless it says so. -/
def State.pop (s : State) : State := { s with env := { s.env with script := s.env.script.tail, event := none } }

/-- A step of which the script says nothing: the sensor and the time base do anything they may (R24, R25), and the next
step is the sequencer's (R341). -/
def State.unscripted (s : State) : State :=
  { s with env := { s.env with
      sensorPull := Config.unscriptedPull s.env.free
      now := s.env.now + Config.unscriptedTicks s.env.free
      free := s.env.free + 1 } }

/-- The sequencer's move (R32): it has one exactly when `BUSY = 1`. -/
def fetchSeq (s : State) : Fetched :=
  if s.blk.busy then
    match (s.blk.lead s.blk.step.todo).step.todo with
    | .event (.command byte) :: rest =>
      match decodeWire byte with
      | .instr i => .run i { s with blk := (s.blk.lead s.blk.step.todo).moveTo rest }
      | .rejected _ => .other (advance s)
    | _ => .other (advance s)
  else .other (.next s)

/-- A write to `CMD` (R41): only bits 15:0 are looked at; an illegal word is refused (R101). -/
def fetchCmd (v : Word) (s : State) : Fetched :=
  match decodeHost (v.setWidth 16) with
  | .instr i => .run i s
  | .rejected _ => .other (.next s.refuseWrite)

/-- The host's move (R40). -/
def fetchHost (a : HostAccess) (s : State) : Fetched :=
  match a with
  | .read r => .other (.next (hostRead r s))
  | .write r v => if r = 0 then fetchCmd v s else .other (.next (hostWrite r v s))

/-- The next move in the total order of all agents' steps (R14, R74). -/
def fetch (s : State) : Fetched :=
  match s.env.script with
  | [] => fetchSeq s.pop.unscripted
  | .seq :: _ => fetchSeq s.pop
  | .host a :: _ => fetchHost a s.pop
  | .sensor pull :: _ => .other (.next { s.pop with env := { s.pop.env with sensorPull := pull } })
  | .tick n :: _ => .other (.next { s.pop with env := { s.pop.env with now := s.env.now + n } })
  | .reset :: _ => .other (.next { s.pop with blk := Block.reset })

/-- `s` with a command word on the host port as the next move (R41). -/
def State.withHostWord (s : State) (w : Half) : State :=
  { s with env := { s.env with script := .host (.write 0 (w.setWidth 32)) :: s.env.script } }

/-- `s` inside an operation whose next call sends the command byte `b`, and the sequencer moving next (R31, R32). -/
def State.withWireByte (s : State) (b : Byte) : State :=
  { blk := { s.blk with
      busy := true
      done := false
      irqPend := false
      state := .commandSent
      step := { Position.empty with todo := [.event (.command b), .update .complete] } }
    env := { s.env with script := .seq :: s.env.script } }

/-- `s` with the instruction `w` of `nbits` bits where the next step fetches it. -/
def State.placeWord (s : State) (nbits w : Nat) : State :=
  if nbits = 16 then s.withHostWord (BitVec.ofNat 16 w)
  else if nbits = 8 then s.withWireByte (BitVec.ofNat 8 w)
  else s

end Sys2Proof.Machine
end

