-- ==== Sys2Proof/Machine/Step.lean ====
section
/-! DEFINITION. One step of the machine: one step of one agent (00_scope.md rules R13 and R14). -/

namespace Sys2Proof.Machine

/-- The next move; where it brings an instruction, that instruction's meaning. -/
def step (s : State) : Host.Outcome State Fault Refusal :=
  match fetch s with
  | .run i t => exec i t
  | .other r => r

/-- `s` with the instruction `w` of `nbits` bits where `step` fetches its next instruction: a host word on the host
port, a wire byte as the sequencer's next call. -/
def State.withFetchWord (s : State) (nbits w : Nat) : State := s.placeWord nbits w

end Sys2Proof.Machine
end

