-- ==== Sys2Proof/Safety.lean ====
section
/-! DEFINITION. The terms claims are made in: the invariant of the block (10_state.md rule R58 with what makes it
inductive), the trace of a run (00_scope.md rule R11), decoding a command trace (41_frame_encoder.md rule R144), and
the moves of a sensor that answers. -/

namespace Sys2Proof.Machine

/-! ## The shape of a position

R31: an operation is a sequence of procedure calls, each a list of wire events with at most one loop.  `wellShaped`
says of what is left of an operation that it runs to a terminal step with DATA an input at every sample (R124). -/

/-- What the rest of an operation depends on: the direction of DATA, the level of CLOCK, and three flags. -/
structure Shape where
  /-- `DATA_DIR`. -/
  dir : Dir
  /-- `CLK_OUT`. -/
  clk : Bool
  /-- `T_VALID`. -/
  tv : Bool
  /-- `WATCH_ARMED`. -/
  armed : Bool
  /-- `NEST`. -/
  nest : Bool
deriving DecidableEq, Repr

/-- The shape a block is in. -/
def Block.shape (b : Block) : Shape :=
  { dir := b.dataDir, clk := b.clkOut, tv := b.tValid, armed := b.watchArmed, nest := b.nest }

/-- The shape after a pin event (R121 to R123). -/
def Shape.drive (a : Shape) : PinEvent → Shape
  | .clk v => { a with clk := v }
  | .data _ => { a with dir := .out }
  | .release => { a with dir := .inp }

/-- `STATE` in {1, 2, 3, 4} (R58). -/
def SeqState.running : SeqState → Bool
  | .idle => false
  | .commandSent => true
  | .awaitingAck => true
  | .awaitingMeasurement => true
  | .decoding => true
  | .done => false
  | .failed => false

/-- DATA is an input and CLOCK is low: where a wait polls (R160, R224). -/
def Shape.listening (a : Shape) : Bool := a.dir == .inp && !a.clk

/-- What comes after a call: assignments, then another call or the end of the body. -/
def callNext : List Micro → Bool
  | [] => true
  | .update _ :: rest => callNext rest
  | .event (.command _) :: _ => true
  | _ => false

/-- The steps left lead from shape `a` to a terminal step, sample DATA only as an input, leave CLOCK low, arm nothing
that stays armed, compute a humidity only with a valid temperature and as their last assignment, take a procedure's
result in the step of its last event only, and go from a call or a decoded status read to another call or to the end. -/
def wellShaped : Shape → List Micro → Bool
  | _, [] => false
  | a, .update u :: rest =>
    match u with
    | .goto st => st.running && wellShaped a rest
    | .nest v => wellShaped { a with nest := v } rest
    | .countAck => wellShaped a rest
    | .arm => wellShaped { a with armed := true } rest
    | .latchStatus => false
    | .refreshMode => callNext rest && wellShaped a rest
    | .stageWrite _ => wellShaped a rest
    | .markStale => wellShaped a rest
    | .latchRaw => false
    | .calTemp _ => wellShaped { a with tv := true } rest
    | .calHumid _ => a.tv && rest == [.update .complete] && wellShaped a rest
    | .setReady => wellShaped a rest
    | .complete => rest.isEmpty && !a.armed && !a.nest && !a.clk
  | a, .result u :: rest => (u == .latchStatus || u == .latchRaw) && wellShaped a rest
  | a, .raise kind _ :: rest => kind != .noError && rest.isEmpty && !a.clk
  | a, .event e :: rest =>
    match e with
    | .pin p => wellShaped (a.drive p) rest
    | .sampleBit => a.listening && wellShaped a rest
    | .latchTime => wellShaped a rest
    | .poll (.ack kind _) => a.listening && kind != .noError && wellShaped a rest
    | .poll (.ready _) => a.listening && wellShaped { a with armed := false } rest
    | .check (.ack kind _) => a.listening && kind != .noError && wellShaped a rest
    | .check (.ready _) => a.listening && wellShaped { a with armed := false } rest
    | .settle => wellShaped a rest
    | .command _ => !a.armed && !a.clk && callNext rest && wellShaped { a with dir := .out } rest

/-- The handshakes a wire command's transaction waits for (R165). -/
def handshakesOf (byte : Byte) : Nat :=
  match decodeWire byte with
  | .instr .wMeasureTemp => 1
  | .instr .wMeasureRh => 1
  | .instr .wReadStatus => 1
  | .instr .wWriteStatus => 2
  | _ => 0

/-- The handshakes still to be counted (R36). -/
def handshakesLeft : List Micro → Nat
  | [] => 0
  | .update .countAck :: rest => handshakesLeft rest + 1
  | .event (.command byte) :: rest => handshakesLeft rest + handshakesOf byte
  | _ :: rest => handshakesLeft rest

/-! ## The invariant -/

/-- What every reachable block satisfies: the items of R58 but its seventh, which is about two states, and what makes
them inductive. -/
structure Block.Inv (b : Block) : Prop where
  /-- R58 item 1. -/
  busy_running : b.busy = true → b.done = false ∧ b.state.running = true
  /-- R58 item 2. -/
  idle_quiet : b.busy = false →
    b.state.running = false ∧ b.watchArmed = false ∧ b.timerArmed = false ∧ b.nest = false
  /-- R58 item 3. -/
  done_ok : b.state = .done → b.errKind = .noError
  /-- R58 item 3. -/
  failed_error : b.state = .failed → b.errKind ≠ .noError
  /-- R58 item 3 and its converse: outside an operation `DONE` is 1 exactly in the terminal states. -/
  done_iff_terminal : b.busy = false → (b.done = true ↔ b.state ≠ .idle)
  /-- R58 item 4. -/
  humid_valid : b.hValid = true → b.errKind = .noError ∧ b.tValid = true
  /-- R58 item 5. -/
  error_invalid : b.errKind ≠ .noError → b.hValid = false ∧ (b.isReadTemp = true → b.tValid = false)
  /-- R58 item 6. -/
  armed_together : b.watchArmed = b.timerArmed
  /-- R58 item 8. -/
  irq_async : b.irqPend = true → b.done = true ∧ b.face = true
  /-- No error and no humidity while an operation runs; the kind a missed handshake would raise is an error. -/
  busy_clean : b.busy = true → b.errKind = .noError ∧ b.hValid = false ∧ b.step.kind ≠ .noError
  /-- R31: outside an operation no step is pending. -/
  idle_empty : b.busy = false → b.step = Position.empty
  /-- While an operation runs its position is well shaped. -/
  busy_shaped : b.busy = true → wellShaped b.shape b.step.todo = true
  /-- R128, between operations: CLOCK's latch is low. -/
  idle_clk_low : b.busy = false → b.clkOut = false
  /-- R36: no operation has more than 4 handshakes. -/
  ack_budget : b.ackCnt.toNat + handshakesLeft b.step.todo ≤ 4

/-- The invariant of the machine: the block's; nothing is asked of the environment. -/
def State.Inv (s : State) : Prop := s.blk.Inv

/-! ## Traces -/

/-- The wire events of the next `n` steps (R11). -/
def trace : Nat → State → List WireEvent
  | 0, _ => []
  | n + 1, s =>
    match step s with
    | .next t => t.env.event.toList ++ trace n t
    | .fault _ => []
    | .refused _ => []

/-- The level of the latest `D` event, taken at each `C1` event (R144). -/
def clockedBits : Bool → List PinEvent → List Bool
  | _, [] => []
  | _, .data v :: rest => clockedBits v rest
  | d, .clk true :: rest => d :: clockedBits d rest
  | d, .clk false :: rest => clockedBits d rest
  | d, .release :: rest => clockedBits d rest

/-- Eight bits, the first as bit 7 (R64, R144). -/
def byteOfBits (bits : List Bool) : Byte := bits.foldl (fun acc b => acc.extractLsb' 0 7 ++ BitVec.ofBool b) 0

/-- Decoding the trace of a command: drop the start sequence, read the bits at the clock pulses (R144). -/
def decodeTrace (es : List PinEvent) : Byte := byteOfBits (clockedBits false (es.drop 8))

/-! ## The moves of a sensor that answers

Scripts in which the sensor acknowledges at the first poll, presents its data bits before each sample, and nothing
else happens between the sequencer's steps. -/

/-- `n` steps of the sequencer. -/
def clocks (n : Nat) : List Act := List.replicate n .seq

/-- The sensor puts bit `b` on DATA, and the sequencer samples it. -/
def present (b : Bool) : List Act := [.sensor (!b), .seq]

/-- A handshake that succeeds at its first poll (R160). -/
def answerAck : List Act := clocks 2 ++ present false ++ clocks 3

/-- The sensor sends a byte (R170). -/
def answerByte (v : Byte) : List Act := .seq :: (wireBits v).flatMap fun b => present b ++ clocks 2

/-- Transaction "status read": status byte `st`, checksum byte `ck` (R95, R172). -/
def answerStatusRead (st ck : Byte) : List Act :=
  clocks 32 ++ answerAck ++ answerByte st ++ clocks 3 ++ answerByte ck ++ clocks 3

/-- Transaction "status write" (R95, R192). -/
def answerStatusWrite : List Act := clocks 32 ++ answerAck ++ clocks 24 ++ answerAck

/-- Transaction "measurement", ready at the first poll, raw code `raw` (R95, R173, R224). -/
def answerMeasure (raw : Half) : List Act :=
  clocks 32 ++ answerAck ++ clocks 2 ++ present false ++ answerByte (raw.extractLsb' 8 8) ++ clocks 3
    ++ answerByte (raw.extractLsb' 0 8) ++ clocks 1

/-- Transaction "soft reset", the settle delay over at the second look (R198). -/
def answerSoftReset : List Act := clocks 33 ++ [.tick 11, .seq]

/-- The rounds of a wait in which the sensor stays silent: a sample that finds DATA high, some ticks, a time read. -/
def silentRounds (ticks : List Time) : List Act := ticks.flatMap fun d => [.sensor false, .seq, .tick d, .seq]

/-- A handshake that is missed: the first time read, `d` ticks after the wait's start, is past the bound (R160, R162). -/
def missAck (d : Time) : List Act := clocks 2 ++ silentRounds [d] ++ clocks 1

/-- A measurement wait that times out, `d` ticks after its start (R224). -/
def missReady (d : Time) : List Act := clocks 2 ++ silentRounds [d]

/-- The rounds of an environment that keeps time moving: before each step of the sequencer the sensor does `p` and
`NOW` advances by `d` ticks. -/
def liveRounds (moves : List (Bool × Time)) : List Act := moves.flatMap fun m => [.sensor m.1, .tick m.2, .seq]

/-! ## The words statements use -/

/-- `n` steps of the machine lead from `s` to `t`. -/
def runsTo (n : Nat) (s t : State) : Prop := Host.Core.run Sys2Proof.core n s = .next t

/-- `s` with the moves `rest` still to come and no wire event performed. -/
def State.movedOn (s : State) (rest : List Act) : State :=
  { s with env := { s.env with script := rest, event := none } }

/-- The block with the record of the last operation cleared and the command word latched: what acceptance writes
whatever the command (R222), but for `BUSY`, `STATE` and `STEP`. -/
def Block.cleared (b : Block) (word : Half) (face : Bool) : Block :=
  { b with
    cmdl := word
    face := face
    done := false
    irqPend := false
    errKind := .noError
    errSite := 0
    ackCnt := 0
    tValid := false
    tSrc := false
    hValid := false
    stValid := false
    nest := false
    watchArmed := false
    timerArmed := false }

/-- The block right after acceptance, at the first step of its body (R222). -/
def Block.begun (b : Block) (word : Half) (face : Bool) (first : SeqState) (body : Position) : Block :=
  { b.cleared word face with busy := true, state := first, step := body }

/-- The block in the terminal state `Done` (R228), with CLOCK driven low and DATA driven at `dataOut`. -/
def Block.finished (b : Block) (dataOut : Bool) : Block :=
  { b with
    state := .done
    busy := false
    done := true
    irqPend := b.face
    step := Position.empty
    clkOut := false
    clkDir := .out
    dataOut := dataOut
    dataDir := .out }

/-- The block in the terminal state `Failed` with this error (R229), its valid flags aside. -/
def Block.failedWith (b : Block) (kind : ErrKind) (site : BitVec 3) : Block :=
  { b with
    errKind := kind
    errSite := site
    hValid := false
    watchArmed := false
    timerArmed := false
    nest := false
    state := .failed
    busy := false
    done := true
    irqPend := b.irqPend || b.face
    step := Position.empty }

/-- After a wait: an event is still to come, and the assignments before it, if any, are its own (R233). -/
def waitsForEvent : List Micro → Bool
  | .event _ :: _ => true
  | .update _ :: rest => hasEvent rest
  | _ => false

/-- How many wire events a list of steps has. -/
def eventsIn (todo : List Micro) : Nat :=
  todo.countP fun m => match m with
    | .event _ => true
    | .update _ => false
    | .result _ => false
    | .raise _ _ => false

/-- The next step of a sequencer at `todo` performs the assignment `u`: it stands before the next event, or after the
last one (R233). -/
def carries (todo : List Micro) (u : Update) : Prop :=
  ∃ pre post, todo = pre ++ .update u :: post ∧ (eventsIn pre = 0 ∨ (eventsIn pre = 1 ∧ eventsIn post = 0))

/-- `word` is a host operation that calls `setStatusBit(bit, val)` (R201, R205); `refresh` says whether it is one of the
four wrappers, which read the status again. -/
def writesStatus (word : Half) (bit : BitVec 3) (val refresh : Bool) : Prop :=
  if refresh then
    (word, bit, val) ∈
      [(0x5000#16, 0#3, true), (0x6000, 0, false), (0x7200, 2, true), (0x7000, 2, false), (0x8200, 1, false),
        (0x8000, 1, true)]
  else word = 0x4000#16 ||| (BitVec.ofBool val).setWidth 16 <<< 9 ||| bit.setWidth 16 <<< 6

/-- The block after a missed handshake: failed at this site, DATA parked low and CLOCK low (R162, R229). -/
def Block.parked (b : Block) (site : BitVec 3) : Block :=
  { b.failedWith .handshakeTimeout site with clkOut := false, clkDir := .out, dataOut := false, dataDir := .out }

/-- The block after a measurement that was never ready: failed at this site, DATA an input, its latch as the handshake
left it, CLOCK low (R224, R229). -/
def Block.abandoned (b : Block) (site : BitVec 3) : Block :=
  { b.failedWith .measurementTimeout site with clkOut := false, clkDir := .out, dataOut := false, dataDir := .inp }

/-- The trace of a list of pin events. -/
def pinTrace (es : List PinEvent) : List WireEvent := es.map .pin

/-- The trace of a handshake answered at its first poll, at time `t` (R160). -/
def handshakeTrace (t : Time) : List WireEvent :=
  [.pin .release, .time t, .sample false, .pin (.clk true), .pin (.clk false), .pin (.data false)]

/-- The trace of a received byte (R170). -/
def byteTrace (v : Byte) : List WireEvent :=
  .pin .release :: (wireBits v).flatMap fun b => [.sample b, .pin (.clk true), .pin (.clk false)]

/-- The trace of a measurement with command byte `byte`, answered at the first polls, raw code `raw`, at time `t` (R95). -/
def measureTrace (byte : Byte) (t : Time) (raw : Half) : List WireEvent :=
  pinTrace (startSeq ++ sendByte byte) ++ handshakeTrace t ++ [.pin .release, .time t, .sample false]
    ++ byteTrace (raw.extractLsb' 8 8) ++ pinTrace [.data false, .clk true, .clk false]
    ++ byteTrace (raw.extractLsb' 0 8) ++ pinTrace [.data true]

/-- How many clock pulses a trace gives. -/
def clockPulses (es : List WireEvent) : Nat := es.count (.pin (.clk true))

/-- Two blocks agree on everything but `CKSUM`, `RES_STALE` and `REJECT`, which no rule of the block reads (R35, R39,
R174). -/
def Block.agrees (b c : Block) : Prop :=
  { b with cksum := c.cksum, resStale := c.resStale, reject := c.reject } = c

/-- Two environments agree on everything but the data of the last host read. -/
def Env.agrees (d e : Env) : Prop := { d with rdata := e.rdata } = e

end Sys2Proof.Machine
end

