-- ==== Sys2Proof/Certificates/Slice0/Obligations.lean ====
section
/-! DEFINITION. The statements for the provers.  Each docstring names the rule of the spec the statement formalises.
Where a statement rests on a reading or a choice of the model its docstring names the row of the assumption log. -/

section

open Sys2Proof Sys2Proof.Machine

/-! ## Encoding -/

/-- Words written out from the encodings of R94, R99 and R100 decode to the instruction they stand for (vectors V30). -/
def Obligations.WordsOfTheSpecDecode : Prop :=
  decodeTableWord 16 0x1000 = some .init ∧
  decodeTableWord 16 0x43C0 = some (.setStatusBit 7 true) ∧
  decodeTableWord 16 0x4080 = some (.setStatusBit 2 false) ∧
  decodeTableWord 16 0x7200 = some (.setHeater true) ∧
  decodeTableWord 16 0x9800 = some (.readTemp true) ∧
  decodeTableWord 16 0xA400 = some (.readHumid false true) ∧
  decodeTableWord 16 0xB020 = some (.calTemp true) ∧
  decodeTableWord 8 0x1E = some .wSoftReset ∧
  decodeTableWord 16 0x1001 = none ∧
  decodeTableWord 8 0x23 = none

/-- Decoding the encoding of a well-formed instruction gives it back, every operand at every value (R91, R94, R99,
R100). -/
def Obligations.DecodeInvertsEncode : Prop :=
  ∀ i : Instr, i.wellFormed = true → decodeTableWord i.format.width (encode i).toNat = some i

/-- A word that decodes is the encoding of the instruction it decodes to, which is well formed and of that width. -/
def Obligations.EncodeInvertsDecode : Prop :=
  ∀ (nbits w : Nat) (i : Instr), w < 2 ^ nbits → decodeTableWord nbits w = some i →
    (encode i).toNat = w ∧ i.format.width = nbits ∧ i.wellFormed = true

/-- R100: a word is legal exactly when it matches a row, and it is then that row's operation; the rows are disjoint;
35 words are legal. -/
def Obligations.LegalWordsMatchOneRow : Prop :=
  (∀ w : Half, (∃ i, decodeHost w = .instr i) ↔ ∃ r ∈ hostRows, w &&& r.2 = r.1) ∧
  (∀ (w : Half) (i : Instr), decodeHost w = .instr i → w &&& rowMask i = rowMatch i) ∧
  (∀ (w : Half) (r q : Half × Half), r ∈ hostRows → q ∈ hostRows → w &&& r.2 = r.1 → w &&& q.2 = q.1 → r = q) ∧
  ∃ legal : List Half, legal.length = 35 ∧ legal.Nodup ∧ ∀ w : Half, (∃ i, decodeHost w = .instr i) ↔ w ∈ legal

/-! ## Commands -/

/-- R101: an illegal word, any word while an operation runs, and a bus operation other than `INIT` on a block that is not
constructed, set `REJECT` and do nothing else. -/
def Obligations.RefusedCommandOnlySetsReject : Prop :=
  ∀ (s : State) (v : Word) (rest : List Act), s.env.script = .host (.write 0 v) :: rest →
    ((∀ r ∈ hostRows, v.extractLsb' 0 16 &&& r.2 ≠ r.1) ∨ s.blk.busy = true ∨
      (s.blk.ready = false ∧ v.extractLsb' 12 4 ≠ 0x1 ∧ v.extractLsb' 12 4 ≠ 0xB ∧ v.extractLsb' 12 4 ≠ 0xC)) →
    step s = .next { s.movedOn rest with blk := { s.blk with reject := true } }

/-- R41: a write to `CMD` is accepted if and only if the block is idle, bits 15:0 are a legal word, and the operation's
`READY` requirement holds; otherwise only `REJECT` changes; a read returns the last accepted word, 0 after reset. -/
def Obligations.CommandAcceptedExactlyWhen : Prop :=
  (∀ (s : State) (v : Word) (rest : List Act), s.env.script = .host (.write 0 v) :: rest →
    ∃ t, step s = .next t ∧
      ((s.blk.busy = false ∧ (∃ r ∈ hostRows, v.extractLsb' 0 16 &&& r.2 = r.1) ∧
          (s.blk.ready = true ∨ v.extractLsb' 12 4 = 0x1 ∨ v.extractLsb' 12 4 = 0xB ∨ v.extractLsb' 12 4 = 0xC)) →
        t.blk.busy = true ∧ t.blk.cmdl = v.extractLsb' 0 16 ∧ t.blk.reject = s.blk.reject) ∧
      (¬(s.blk.busy = false ∧ (∃ r ∈ hostRows, v.extractLsb' 0 16 &&& r.2 = r.1) ∧
          (s.blk.ready = true ∨ v.extractLsb' 12 4 = 0x1 ∨ v.extractLsb' 12 4 = 0xB ∨ v.extractLsb' 12 4 = 0xC)) →
        t.blk = { s.blk with reject := true })) ∧
  (∀ (s : State) (rest : List Act), s.env.script = .host (.read 0) :: rest →
    ∃ t, step s = .next t ∧ t.env.rdata = s.blk.cmdl.setWidth 32) ∧
  State.reset.blk.cmdl = 0

/-- A step runs the decoded instruction: the one a legal word written to `CMD` stands for, or the one whose byte the
sequencer sends next, with the assignments before that event done and the position past the call; and the instruction
`withFetchWord` places.  The third clause, a step past the script's end, rests on the model's choice of log row 2; the two
about `withFetchWord` on the reading of log row 5. -/
def Obligations.StepRunsTheDecodedInstruction : Prop :=
  (∀ (s : State) (v : Word) (i : Instr) (rest : List Act), s.env.script = .host (.write 0 v) :: rest →
    decodeHost (v.extractLsb' 0 16) = .instr i → step s = exec i (s.movedOn rest)) ∧
  (∀ (s : State) (byte : Byte) (i : Instr) (todo : List Micro) (rest : List Act), s.env.script = .seq :: rest →
    s.blk.busy = true → (s.blk.lead s.blk.step.todo).step.todo = .event (.command byte) :: todo →
    decodeWire byte = .instr i →
    step s = exec i { s.movedOn rest with blk := (s.blk.lead s.blk.step.todo).moveTo todo }) ∧
  (∀ (s : State) (byte : Byte) (i : Instr) (todo : List Micro), s.env.script = [] →
    s.blk.busy = true → (s.blk.lead s.blk.step.todo).step.todo = .event (.command byte) :: todo →
    decodeWire byte = .instr i →
    step s = exec i { (s.movedOn []).unscripted with blk := (s.blk.lead s.blk.step.todo).moveTo todo }) ∧
  (∀ (s : State) (w : Half) (i : Instr), decodeHost w = .instr i →
    step (s.withFetchWord 16 w.toNat) = exec i (s.movedOn s.env.script)) ∧
  (∀ (s : State) (byte : Byte) (i : Instr), decodeWire byte = .instr i →
    step (s.withFetchWord 8 byte.toNat) = exec i { s.movedOn s.env.script with
      blk := { s.blk with
        busy := true, done := false, irqPend := false, state := .commandSent
        step := { Position.empty with todo := [.update .complete] } } })

/-- R222 for `INIT`: the whole state after acceptance; it needs no constructed session, and forgets the one it had. -/
def Obligations.InitIsAccepted : Prop :=
  ∀ s : State, s.blk.busy = false →
    exec .init s = .next { s with blk :=
      { s.blk.begun 0x1000 false .commandSent
          (bodyOf (callSoftReset ++ callGetStatus ++ [.update .setReady]) (kind := .constructionFailure)) with
        ready := false, resMode := false } }

/-- R222 for the seven other operations of the status manager (R200 to R203): the whole state after acceptance. -/
def Obligations.StatusOperationsAreAccepted : Prop :=
  ∀ s : State, s.blk.busy = false → s.blk.ready = true →
    exec .softReset s = .next { s with blk := s.blk.begun 0x2000 false .commandSent (bodyOf callSoftReset) } ∧
    exec .getStatus s = .next { s with blk := s.blk.begun 0x3000 false .commandSent (bodyOf callGetStatus) } ∧
    (∀ (bit : Nat) (val : Bool), bit < 8 →
      exec (.setStatusBit bit val) s = .next { s with
        blk := s.blk.begun (0x4000#16 ||| (BitVec.ofBool val).setWidth 16 <<< 9 ||| BitVec.ofNat 16 bit <<< 6) false .commandSent
          (bodyOf callSetStatusBit (bit := BitVec.ofNat 3 bit) (val := val)) }) ∧
    exec .setLowRes s = .next { s with blk := s.blk.begun 0x5000 false .commandSent (wrapperBody 0 true) } ∧
    exec .setHighRes s = .next { s with blk := s.blk.begun 0x6000 false .commandSent (wrapperBody 0 false) } ∧
    (∀ val : Bool, exec (.setHeater val) s = .next { s with
      blk := s.blk.begun (if val then 0x7200 else 0x7000) false .commandSent (wrapperBody 2 val) }) ∧
    (∀ val : Bool, exec (.setOtpReload val) s = .next { s with
      blk := s.blk.begun (if val then 0x8200 else 0x8000) false .commandSent (wrapperBody 1 (!val)) })

/-- R222 for the two read operations (R225 to R227): the whole state after acceptance; a supplied compensation
temperature is copied in this step. -/
def Obligations.ReadOperationsAreAccepted : Prop :=
  ∀ (s : State) (face : Bool), s.blk.busy = false → s.blk.ready = true →
    exec (.readTemp face) s = .next { s with
      blk := s.blk.begun (if face then 0x9800 else 0x9000) face .commandSent readTempBody } ∧
    exec (.readHumid face false) s = .next { s with
      blk := s.blk.begun (if face then 0xA800 else 0xA000) face .commandSent readHumidNestedBody } ∧
    exec (.readHumid face true) s = .next { s with blk :=
      { s.blk.begun (if face then 0xAC00 else 0xA400) face .commandSent readHumidSuppliedBody with
        temp := s.blk.argTemp.signExtend 32, tValid := true, tSrc := true } }

/-- R222 for the two calibration operations (R257, R258): the whole state after acceptance; the operands are copied in
this step, and no constructed session is needed. -/
def Obligations.CalibrationsAreAccepted : Prop :=
  ∀ (s : State) (res : Bool), s.blk.busy = false →
    exec (.calTemp res) s = .next { s with blk :=
      { s.blk.begun (if res then 0xB020 else 0xB000) false .decoding (bodyOf [.update (.calTemp (.given res))]) with
        raw := s.blk.argRaw } } ∧
    exec (.calHumid res) s = .next { s with blk :=
      { s.blk.begun (if res then 0xC020 else 0xC000) false .decoding (bodyOf [.update (.calHumid (.given res))]) with
        raw := s.blk.argRaw, temp := s.blk.argTemp.signExtend 32, tValid := true, tSrc := true } }

/-- The five wire commands begin in every state (R95, R99, R143): the step drives DATA high, the first event of the start
sequence, in `CommandSent`, with the rest of the command's transaction before what was left of the operation, and
changes nothing else.  That a block outside an operation, to which R32 gives no step, does the same is the model's choice
(log row 17). -/
def Obligations.WireCommandsBegin : Prop :=
  ∀ s : State,
    exec .wMeasureTemp s = .next
      { blk := { s.blk with
          dataOut := true, dataDir := .out, state := .commandSent
          step := { s.blk.step with todo := (measurement 0b00011 4 6).drop 2 ++ s.blk.step.todo } }
        env := { s.env with event := some (.pin (.data true)) } } ∧
    exec .wMeasureRh s = .next
      { blk := { s.blk with
          dataOut := true, dataDir := .out, state := .commandSent
          step := { s.blk.step with todo := (measurement 0b00101 5 7).drop 2 ++ s.blk.step.todo } }
        env := { s.env with event := some (.pin (.data true)) } } ∧
    exec .wReadStatus s = .next
      { blk := { s.blk with
          dataOut := true, dataDir := .out, state := .commandSent
          step := { s.blk.step with todo := (statusRead s.blk.step.kind).drop 2 ++ s.blk.step.todo } }
        env := { s.env with event := some (.pin (.data true)) } } ∧
    exec .wWriteStatus s = .next
      { blk := { s.blk with
          dataOut := true, dataDir := .out, state := .commandSent
          step := { s.blk.step with
            todo := (statusWrite (newStatus s.blk.status s.blk.step.bit s.blk.step.val)).drop 2 ++ s.blk.step.todo } }
        env := { s.env with event := some (.pin (.data true)) } } ∧
    exec .wSoftReset s = .next
      { blk := { s.blk with
          dataOut := true, dataDir := .out, state := .commandSent
          step := { s.blk.step with todo := softResetAndSettle.drop 2 ++ s.blk.step.todo } }
        env := { s.env with event := some (.pin (.data true)) } }

/-! ## The register port -/

/-- R40: what a read of each register returns; a read changes no element of the block and no environment input.
`STAT`, `CTRL` and `PINS` have statements of their own. -/
def Obligations.HostReadReturnsTheRegister : Prop :=
  ∀ (s : State) (r : Nat) (rest : List Act), s.env.script = .host (.read r) :: rest →
    ∃ t, step s = .next t ∧ t.blk = s.blk ∧ t.env.script = rest ∧ t.env.sensorPull = s.env.sensorPull ∧
      t.env.now = s.env.now ∧ t.env.event = none ∧
      (r = 0 → t.env.rdata = s.blk.cmdl.setWidth 32) ∧
      (r = 3 → t.env.rdata = s.blk.ackTmo.setWidth 32) ∧
      (r = 4 → t.env.rdata = s.blk.measTmo.setWidth 32) ∧
      (r = 5 → t.env.rdata = s.blk.argTemp.setWidth 32) ∧
      (r = 6 → t.env.rdata = s.blk.argRaw.setWidth 32) ∧
      (r = 7 → t.env.rdata = 0#8 ++ s.blk.statw ++ s.blk.cksum ++ s.blk.status) ∧
      (r = 8 → t.env.rdata = s.blk.raw.setWidth 32) ∧
      (r = 9 → t.env.rdata = s.blk.temp) ∧
      (r = 10 → t.env.rdata = s.blk.humid.extractLsb' 0 32) ∧
      (r = 11 → t.env.rdata = s.blk.humid.extractLsb' 32 32)

/-- R42: the fields of `STAT`, with the numbers of R30 for `STATE` and of R281 for `ERR_KIND`, and the refusal of a write
to it. -/
def Obligations.StatRegisterLayout : Prop :=
  (∀ (s : State) (rest : List Act), s.env.script = .host (.read 1) :: rest →
    ∃ t, step s = .next t ∧ t.blk = s.blk ∧
      t.env.rdata.getLsbD 0 = s.blk.busy ∧ t.env.rdata.getLsbD 1 = s.blk.done ∧
      t.env.rdata.getLsbD 2 = s.blk.ready ∧ t.env.rdata.getLsbD 3 = s.blk.reject ∧
      t.env.rdata.getLsbD 4 = s.blk.irqPend ∧
      (t.env.rdata.extractLsb' 5 3 = match s.blk.state with
        | .idle => 0#3 | .commandSent => 1#3 | .awaitingAck => 2#3 | .awaitingMeasurement => 3#3
        | .decoding => 4#3 | .done => 5#3 | .failed => 6#3) ∧
      (t.env.rdata.extractLsb' 8 2 = match s.blk.errKind with
        | .noError => 0#2 | .handshakeTimeout => 1#2 | .measurementTimeout => 2#2 | .constructionFailure => 3#2) ∧
      t.env.rdata.extractLsb' 10 3 = s.blk.errSite ∧
      t.env.rdata.extractLsb' 13 3 = s.blk.ackCnt ∧ t.env.rdata.getLsbD 16 = s.blk.tValid ∧
      t.env.rdata.getLsbD 17 = s.blk.tSrc ∧ t.env.rdata.getLsbD 18 = s.blk.hValid ∧
      t.env.rdata.getLsbD 19 = s.blk.stValid ∧ t.env.rdata.getLsbD 20 = s.blk.resMode ∧
      t.env.rdata.getLsbD 21 = s.blk.resStale ∧ t.env.rdata.getLsbD 22 = s.blk.watchArmed ∧
      t.env.rdata.getLsbD 23 = s.blk.timerArmed ∧ t.env.rdata.getLsbD 24 = s.blk.face ∧
      t.env.rdata.getLsbD 25 = s.blk.nest ∧ t.env.rdata.extractLsb' 26 6 = 0) ∧
  (∀ (s : State) (v : Word) (rest : List Act), s.env.script = .host (.write 1 v) :: rest →
    step s = .next { s.movedOn rest with blk := { s.blk with reject := true } })

/-- R22 and R52: the fields of `PINS`; under contention (R23) bit 4 may be either level, so nothing is said of it. -/
def Obligations.PinsRegisterShowsTheLines : Prop :=
  ∀ (s : State) (rest : List Act), s.env.script = .host (.read 12) :: rest →
    ∃ t, step s = .next t ∧ t.blk = s.blk ∧
      t.env.rdata.getLsbD 0 = s.blk.clkOut ∧
      (t.env.rdata.getLsbD 1 = true ↔ s.blk.clkDir = .out) ∧
      t.env.rdata.getLsbD 2 = s.blk.dataOut ∧
      (t.env.rdata.getLsbD 3 = true ↔ s.blk.dataDir = .out) ∧
      (s.blk.dataDir = .inp → t.env.rdata.getLsbD 4 = !s.env.sensorPull) ∧
      (s.blk.dataDir = .out → ¬(s.blk.dataOut = true ∧ s.env.sensorPull = true) →
        t.env.rdata.getLsbD 4 = s.blk.dataOut) ∧
      (s.blk.clkDir = .out → t.env.rdata.getLsbD 5 = s.blk.clkOut) ∧
      (s.blk.clkDir = .inp → t.env.rdata.getLsbD 5 = true) ∧
      t.env.rdata.extractLsb' 6 26 = 0

/-- R43: the three actions of a write to `CTRL`, and what a read of it returns. -/
def Obligations.ControlRegisterActions : Prop :=
  (∀ (s : State) (v : Word) (rest : List Act), s.env.script = .host (.write 2 v) :: rest →
    step s = .next { s.movedOn rest with blk :=
      { s.blk with
        irqEn := v.getLsbD 2
        reject := if v.getLsbD 1 = true then false else s.blk.reject
        done := if v.getLsbD 0 = true ∧ s.blk.busy = false then false else s.blk.done
        irqPend := if v.getLsbD 0 = true ∧ s.blk.busy = false then false else s.blk.irqPend
        state :=
          if v.getLsbD 0 = true ∧ s.blk.busy = false ∧ (s.blk.state = .done ∨ s.blk.state = .failed) then .idle
          else s.blk.state } }) ∧
  (∀ (s : State) (rest : List Act), s.env.script = .host (.read 2) :: rest →
    ∃ t, step s = .next t ∧ t.blk = s.blk ∧
      t.env.rdata = 0#29 ++ BitVec.ofBool s.blk.irqEn ++ 0b00#2)

/-- R44 and R46: writes of the two timeouts and the two operands; bits 15:0 are taken while no operation runs, and the
write is refused while one does. -/
def Obligations.TimeoutAndOperandWrites : Prop :=
  ∀ (s : State) (r : Nat) (v : Word) (rest : List Act), s.env.script = .host (.write r v) :: rest →
    (r = 3 ∨ r = 4 ∨ r = 5 ∨ r = 6) →
    (s.blk.busy = true → step s = .next { s.movedOn rest with blk := { s.blk with reject := true } }) ∧
    (s.blk.busy = false → step s = .next { s.movedOn rest with blk :=
      { s.blk with
        ackTmo := if r = 3 then v.extractLsb' 0 16 else s.blk.ackTmo
        measTmo := if r = 4 then v.extractLsb' 0 16 else s.blk.measTmo
        argTemp := if r = 5 then v.extractLsb' 0 16 else s.blk.argTemp
        argRaw := if r = 6 then v.extractLsb' 0 16 else s.blk.argRaw } })

/-- R53, and the read-only registers of R48 and R52: a write sets `REJECT` and changes nothing else; a register that
does not exist reads 0. -/
def Obligations.ReadOnlyAndAbsentRegisters : Prop :=
  (∀ (s : State) (r : Nat) (v : Word) (rest : List Act), s.env.script = .host (.write r v) :: rest → 7 ≤ r →
    step s = .next { s.movedOn rest with blk := { s.blk with reject := true } }) ∧
  (∀ (s : State) (r : Nat) (rest : List Act), s.env.script = .host (.read r) :: rest → 13 ≤ r →
    ∃ t, step s = .next t ∧ t.blk = s.blk ∧ t.env.rdata = 0)

/-- R338: while an operation runs, no host access changes any element of the block but `REJECT` and `IRQ_EN`; writes to
`CMD`, the timeouts and the operands only set `REJECT`; of a write to `CTRL` only `ACK_DONE` is ignored. -/
def Obligations.HostCannotAlterRunningOperation : Prop :=
  ∀ (s : State) (a : HostAccess) (rest : List Act), s.env.script = .host a :: rest → s.blk.busy = true →
    ∃ t, step s = .next t ∧ t.blk = { s.blk with reject := t.blk.reject, irqEn := t.blk.irqEn } ∧
      (∀ (r : Nat) (v : Word), a = .write r v → (r = 0 ∨ r = 3 ∨ r = 4 ∨ r = 5 ∨ r = 6) →
        t.blk = { s.blk with reject := true }) ∧
      (∀ v : Word, a = .write 2 v →
        t.blk = { s.blk with irqEn := v.getLsbD 2, reject := s.blk.reject && !v.getLsbD 1 })

/-! ## Reset -/

/-- R56 and R320: `RESET` puts every element at its reset value from any state, the two OPEN parameters under their names
(log row 1 says which values the model gives them; the statement does not rest on those), both lines released, `irq`
low; `NOW` and `SENSOR_PULL` stay. -/
def Obligations.ResetSetsEveryElement : Prop :=
  ∀ (s : State) (rest : List Act), s.env.script = .reset :: rest →
    step s = .next { s.movedOn rest with blk :=
      { clkOut := false, clkDir := .inp, dataOut := false, dataDir := .inp
        state := .idle, cmdl := 0, step := Position.empty, acc := 0, t0 := 0
        busy := false, done := false, ready := false, reject := false, irqPend := false, irqEn := false
        errKind := .noError, errSite := 0, ackCnt := 0
        tValid := false, tSrc := false, hValid := false, stValid := false
        resMode := false, resStale := false
        watchArmed := false, timerArmed := false, face := false, nest := false
        ackTmo := Config.ackTmoReset, measTmo := Config.measTmoReset, argTemp := 0, argRaw := 0
        status := 0, cksum := 0, statw := 0, raw := 0, temp := 0, humid := 0 } } ∧
    ∀ t, step s = .next t →
      t.blk.step.todo = [] ∧ t.blk.lineClk = true ∧ t.blk.irq = false ∧
      ∀ free : Bool, t.blk.lineData t.env.sensorPull free = !s.env.sensorPull

/-! ## Wire events -/

/-- R121 to R123: `C1`/`C0` write CLOCK's latch and make it an output; `D1`/`D0` do so for DATA; `DZ` makes DATA an input
and keeps the latch; the other line is kept, whatever assignments follow the event.  Where another event follows, nothing
else of the block changes but the position. -/
def Obligations.PinEventsWriteTheLines : Prop :=
  ∀ (s : State) (todo : List Micro) (rest : List Act), s.env.script = .seq :: rest → s.blk.busy = true →
    (∀ v : Bool, s.blk.step.todo = .event (.pin (.clk v)) :: todo →
      ∃ t, step s = .next t ∧ t.env = { (s.movedOn rest).env with event := some (.pin (.clk v)) } ∧
        t.blk.clkOut = v ∧ t.blk.clkDir = .out ∧ t.blk.dataOut = s.blk.dataOut ∧ t.blk.dataDir = s.blk.dataDir ∧
        ∀ e more, todo = .event e :: more →
          t.blk = { s.blk with clkOut := v, clkDir := .out, step := { s.blk.step with todo := todo } }) ∧
    (∀ v : Bool, s.blk.step.todo = .event (.pin (.data v)) :: todo →
      ∃ t, step s = .next t ∧ t.env = { (s.movedOn rest).env with event := some (.pin (.data v)) } ∧
        t.blk.clkOut = s.blk.clkOut ∧ t.blk.clkDir = s.blk.clkDir ∧ t.blk.dataOut = v ∧ t.blk.dataDir = .out ∧
        ∀ e more, todo = .event e :: more →
          t.blk = { s.blk with dataOut := v, dataDir := .out, step := { s.blk.step with todo := todo } }) ∧
    (s.blk.step.todo = .event (.pin .release) :: todo →
      ∃ t, step s = .next t ∧ t.env = { (s.movedOn rest).env with event := some (.pin .release) } ∧
        t.blk.clkOut = s.blk.clkOut ∧ t.blk.clkDir = s.blk.clkDir ∧ t.blk.dataOut = s.blk.dataOut ∧
        t.blk.dataDir = .inp ∧
        ∀ e more, todo = .event e :: more →
          t.blk = { s.blk with dataDir := .inp, step := { s.blk.step with todo := todo } })

/-- R124 and R125: a sample takes the level of DATA, an input, which is high when the sensor does not pull, and
`readByte` shifts it into `ACC`; a time read takes `NOW`, and the start of a wait latches it in `T0`.  Where another event
follows, nothing else of the block changes but the position.  That `ACC` and `T0` are written in the step of their own
event is the model's reading of R233 (log row 6). -/
def Obligations.InputEventsReadTheEnvironment : Prop :=
  ∀ (s : State) (todo : List Micro) (rest : List Act), s.env.script = .seq :: rest → s.blk.busy = true →
    (s.blk.step.todo = .event .sampleBit :: todo → s.blk.dataDir = .inp →
      (∀ free : Bool, s.blk.lineData s.env.sensorPull free = !s.env.sensorPull) ∧
      ∃ t, step s = .next t ∧
        t.env = { (s.movedOn rest).env with event := some (.sample (!s.env.sensorPull)) } ∧
        t.blk.acc = s.blk.acc.extractLsb' 0 15 ++ BitVec.ofBool (!s.env.sensorPull) ∧
        ∀ e more, todo = .event e :: more →
          t.blk = { s.blk with
            acc := s.blk.acc.extractLsb' 0 15 ++ BitVec.ofBool (!s.env.sensorPull)
            step := { s.blk.step with todo := todo } }) ∧
    (s.blk.step.todo = .event .latchTime :: todo →
      ∃ t, step s = .next t ∧ t.env = { (s.movedOn rest).env with event := some (.time s.env.now) } ∧
        t.blk.t0 = s.env.now ∧
        ∀ e more, todo = .event e :: more →
          t.blk = { s.blk with t0 := s.env.now, step := { s.blk.step with todo := todo } })

/-- R144: the trace of `sendCommand(c)`, for each of the 32 codes, is 32 pin events that begin with the start sequence of
R141 and decode to address 0 and command `c`. -/
def Obligations.CommandTraceDecodesToItsCode : Prop :=
  ∀ (s : State) (c : BitVec 5) (todo : List Micro) (rest : List Act), s.env.script = clocks 32 ++ rest →
    s.blk.busy = true → s.blk.step.todo = .event (.command (commandByte c)) :: todo →
    ∃ es : List PinEvent, trace 32 s = pinTrace es ∧ es.length = 32 ∧
      es.take 8 = [.data true, .clk true, .data false, .clk false, .clk true, .data true, .clk false, .data false] ∧
      (decodeTrace es).extractLsb' 5 3 = 0 ∧ (decodeTrace es).extractLsb' 0 5 = c

/-- R170: a byte the sensor presents bit 7 first is shifted into the low end of `ACC`, with the trace the rule gives;
CLOCK ends low, DATA an input. -/
def Obligations.ReadByteReceivesMsbFirst : Prop :=
  ∀ (s : State) (v : Byte) (e : SeqEvent) (todo : List Micro) (rest : List Act),
    s.env.script = answerByte v ++ rest → s.blk.busy = true → s.blk.step.todo = readByte ++ .event e :: todo →
    trace (answerByte v).length s = byteTrace v ∧
    ∃ t, runsTo (answerByte v).length s t ∧ t.env.script = rest ∧ t.env.now = s.env.now ∧
      t.blk = { s.blk with
        acc := s.blk.acc.extractLsb' 0 8 ++ v, dataDir := .inp, clkOut := false, clkDir := .out
        step := { s.blk.step with todo := .event e :: todo } }

/-! ## Waits and failure -/

/-- R163 and R164, R224, R198: while the sensor is silent and the bound of a wait is not reached at any time read, the
wait goes on, however many polls that takes, and nothing of the block changes; the same for the settle delay, with
`BUSY` still 1. -/
def Obligations.WaitsContinueWhileTimeRemains : Prop :=
  (∀ (s : State) (w : Wait) (todo : List Micro) (ticks : List Time) (rest : List Act),
    s.env.script = silentRounds ticks ++ rest → s.blk.busy = true → s.blk.dataDir = .inp →
    s.blk.step.todo = .event (.poll w) :: todo →
    (∀ k < ticks.length, elapsed (s.env.now + (ticks.take (k + 1)).sum) s.blk.t0 < w.bound s.blk) →
    ∃ t, runsTo (4 * ticks.length) s t ∧ t.blk = s.blk ∧ t.env.script = rest ∧
      t.env.now = s.env.now + ticks.sum) ∧
  (∀ (s : State) (todo : List Micro) (ticks : List Time) (rest : List Act),
    s.env.script = (ticks.flatMap fun d => [.tick d, .seq]) ++ rest → s.blk.busy = true →
    s.blk.step.todo = .event .settle :: todo →
    (∀ k < ticks.length, elapsed (s.env.now + (ticks.take (k + 1)).sum) s.blk.t0 < 11) →
    ∃ t, runsTo (2 * ticks.length) s t ∧ t.blk = s.blk ∧ t.env.script = rest ∧
      t.env.now = s.env.now + ticks.sum)

/-- R229: a time read at or after the bound of a wait fails the operation.  A handshake parks DATA low in one more event;
a measurement wait adds no event.  `T_VALID` is lost by a temperature read and inside the nested measurement only. -/
def Obligations.TimeoutsFailTheOperation : Prop :=
  (∀ (s : State) (kind : ErrKind) (site : BitVec 3) (todo : List Micro) (rest : List Act),
    s.env.script = .seq :: .seq :: rest → s.blk.busy = true →
    s.blk.step.todo = .event (.check (.ack kind site)) :: todo →
    s.blk.ackTmo.toNat ≤ elapsed s.env.now s.blk.t0 →
    ∃ t, runsTo 2 s t ∧ t.env.script = rest ∧
      t.blk = { s.blk.failedWith kind site with
        tValid := if s.blk.cmdl.extractLsb' 12 4 = 0x9 ∨ s.blk.nest = true then false else s.blk.tValid
        dataOut := false, dataDir := .out }) ∧
  (∀ (s : State) (site : BitVec 3) (todo : List Micro) (rest : List Act),
    s.env.script = .seq :: rest → s.blk.busy = true →
    s.blk.step.todo = .event (.check (.ready site)) :: todo →
    s.blk.measTmo.toNat ≤ elapsed s.env.now s.blk.t0 →
    ∃ t, runsTo 1 s t ∧ t.env.script = rest ∧
      t.blk = { s.blk.failedWith .measurementTimeout site with
        tValid := if s.blk.cmdl.extractLsb' 12 4 = 0x9 ∨ s.blk.nest = true then false else s.blk.tValid })

/-- R164 item 2 and R291: a low level at a poll ends the wait well, whatever the time; the measurement wait disarms in
that step (R237).  `more` is what the operation does after the wait: an event is still to come. -/
def Obligations.LowLevelWinsOverTheDeadline : Prop :=
  ∀ (s : State) (more : List Micro) (rest : List Act), s.env.script = .seq :: rest →
    s.blk.busy = true → s.blk.dataDir = .inp → s.env.sensorPull = true → waitsForEvent more = true →
    (∀ (kind : ErrKind) (site : BitVec 3), s.blk.step.todo = .event (.poll (.ack kind site)) :: more →
      step s = .next
        { blk := { s.blk with step := { s.blk.step with todo := more } }
          env := { (s.movedOn rest).env with event := some (.sample false) } }) ∧
    (∀ site : BitVec 3, s.blk.step.todo = .event (.poll (.ready site)) :: more →
      step s = .next
        { blk := { s.blk with
            watchArmed := false, timerArmed := false
            step := { s.blk.step with todo := more } }
          env := { (s.movedOn rest).env with event := some (.sample false) } })

/-- R237: the first poll of a measurement wait shows both arming flags exactly when `FACE` is 1 and the sensor is silent;
a wait that ends at its first poll leaves both 0 (R233 puts the arming in the step of that poll: log row 6).  `more` is
what the operation does after the wait: an event is still to come. -/
def Obligations.ArmingFollowsTheFace : Prop :=
  ∀ (s : State) (site : BitVec 3) (more : List Micro) (rest : List Act),
    s.env.script = .seq :: rest → s.blk.busy = true → s.blk.dataDir = .inp →
    s.blk.watchArmed = false → s.blk.timerArmed = false → waitsForEvent more = true →
    s.blk.step.todo = .update .arm :: .event (.poll (.ready site)) :: more →
    ∃ t, step s = .next t ∧
      t.blk.watchArmed = (s.blk.face && !s.env.sensorPull) ∧ t.blk.timerArmed = (s.blk.face && !s.env.sensorPull) ∧
      t.blk.step.todo = if s.env.sensorPull then more else .event (.check (.ready site)) :: more

/-! ## Calibration and status bytes -/

/-- R252: `calT` is the rule's formula, exactly, in its range. -/
def Obligations.TemperatureFormulaIsExact : Prop :=
  ∀ raw : Half,
    (calT raw false).toInt = -3970 + raw.toNat ∧ (calT raw true).toInt = -3970 + 4 * raw.toNat ∧
    -3970 ≤ (calT raw false).toInt ∧ (calT raw false).toInt ≤ 61565 ∧
    -3970 ≤ (calT raw true).toInt ∧ (calT raw true).toInt ≤ 258170

/-- R254 and R255: for every temperature the block can hold, `calRH` as `HUMID` holds it is the rule's formula over the
integers; the intermediate values and the result lie within the bounds the rule states. -/
def Obligations.HumidityFormulaNeverOverflows : Prop :=
  ∀ (raw : Half) (tc : Word), -32768 ≤ tc.toInt → tc.toInt ≤ 258170 →
    (-35268 ≤ tc.toInt - 2500 ∧ tc.toInt - 2500 ≤ 255670) ∧
    (∀ res : Bool,
      1000 ≤ 1000 + (if res then 128 else 8) * (raw.toNat : Int) ∧
      1000 + (if res then 128 else 8) * (raw.toNat : Int) ≤ 8389480 ∧
      |(tc.toInt - 2500) * (1000 + (if res then 128 else 8) * (raw.toNat : Int)) * 1000| ≤ 255670 * 8389480 * 1000 ∧
      |rhLinInt raw res| ≤ 17157457509012500) ∧
    (calRH raw tc false).toInt =
      (tc.toInt - 2500) * (1000 + 8 * raw.toNat) * 1000 +
        (-20468000000 + 367000000 * raw.toNat - 15955 * raw.toNat * raw.toNat) ∧
    (calRH raw tc true).toInt =
      (tc.toInt - 2500) * (1000 + 128 * raw.toNat) * 1000 +
        (-20468000000 + 5872000000 * raw.toNat - 4084500 * raw.toNat * raw.toNat) ∧
    ∀ res : Bool, -17453337689652500 ≤ (calRH raw tc res).toInt ∧ (calRH raw tc res).toInt ≤ 91420602687500

/-- R259: the five consequences the spec derives from the calibration formulas. -/
def Obligations.CalibrationConsequences : Prop :=
  (∀ raw : Half, calTInt raw false = (raw.toNat : Int) - 3970 ∧ calTInt raw true = 4 * (raw.toNat : Int) - 3970) ∧
  (∀ (raw raw' : Half) (res : Bool), raw.toNat < raw'.toNat → calTInt raw res < calTInt raw' res) ∧
  (∀ (raw : Half) (res : Bool), calRHInt raw 2500 res = rhLinInt raw res) ∧
  (∀ (raw : Half) (tc : Int) (res : Bool),
    calRHInt raw (tc + 1) res - calRHInt raw tc res = 1000 * (1000 + (if res then 128 else 8) * (raw.toNat : Int)) ∧
    0 < calRHInt raw (tc + 1) res - calRHInt raw tc res) ∧
  (∀ res : Bool, rhLinInt 0 res = -20468000000) ∧
  (∀ raw raw' : Half, raw.toNat ≤ 16383 → raw'.toNat = 4 * raw.toNat → calTInt raw true = calTInt raw' false)

/-- R193: the byte a status write sends, bit by bit: setting a bit keeps every other; clearing one keeps of the others
only the low three. -/
def Obligations.NewStatusBitByBit : Prop :=
  ∀ (cur : Byte) (bit : BitVec 3) (i : Nat), i < 8 →
    (newStatus cur bit true).getLsbD i = (cur.getLsbD i || decide (i = bit.toNat)) ∧
    (newStatus cur bit false).getLsbD i = (cur.getLsbD i && decide (i ≠ bit.toNat) && decide (i < 3))

/-- R191: the decoded flags of a status byte. -/
def Obligations.StatusFlagsDecode : Prop :=
  ∀ s : Byte,
    (statusFlags s).lowVoltage = s.getLsbD 6 ∧ (statusFlags s).heater = s.getLsbD 2 ∧
    (statusFlags s).noOtpReload = s.getLsbD 1 ∧
    (statusFlags s).rhResolutionBits = (if s.getLsbD 0 = true then 8 else 12) ∧
    (statusFlags s).tempResolutionBits = (if s.getLsbD 0 = true then 12 else 14)

/-! ## Whole operations

A sensor that acknowledges at the first poll and presents the bytes named; the block afterwards, whole. -/

/-- R199: `INIT` from any idle block: soft reset, settle delay, status read; the session is constructed. -/
def Obligations.InitConstructsTheSession : Prop :=
  ∀ (s : State) (st ck : Byte) (rest : List Act), s.blk.busy = false →
    s.env.script = .host (.write 0 0x1000) :: (answerSoftReset ++ answerStatusRead st ck ++ rest) →
    ∃ t, runsTo (1 + (answerSoftReset ++ answerStatusRead st ck).length) s t ∧ t.env.script = rest ∧
      t.env.now = s.env.now + 11 ∧
      t.blk = { (s.blk.cleared 0x1000 false).finished false with
        ready := true, ackCnt := 1, stValid := true, resMode := st.getLsbD 0, resStale := false
        status := st, cksum := ck, acc := st ++ ck, t0 := s.env.now + 11 }

/-- R198 and R202: `SOFT_RESET`: no handshake, the settle delay, `RES_STALE` raised, `RESMODE` and `STATUS` kept. -/
def Obligations.SoftResetOnlyMarksTheCache : Prop :=
  ∀ (s : State) (rest : List Act), s.blk.busy = false → s.blk.ready = true →
    s.env.script = .host (.write 0 0x2000) :: (answerSoftReset ++ rest) →
    ∃ t, runsTo (1 + answerSoftReset.length) s t ∧ t.env.script = rest ∧ t.env.now = s.env.now + 11 ∧
      t.blk = { (s.blk.cleared 0x2000 false).finished false with resStale := true, t0 := s.env.now }

/-- R190 and R200: `GET_STATUS` stores the two bytes read and refreshes the cached resolution mode. -/
def Obligations.GetStatusRefreshesTheMode : Prop :=
  ∀ (s : State) (st ck : Byte) (rest : List Act), s.blk.busy = false → s.blk.ready = true →
    s.env.script = .host (.write 0 0x3000) :: (answerStatusRead st ck ++ rest) →
    ∃ t, runsTo (1 + (answerStatusRead st ck).length) s t ∧ t.env.script = rest ∧ t.env.now = s.env.now ∧
      t.blk = { (s.blk.cleared 0x3000 false).finished false with
        ackCnt := 1, stValid := true, resMode := st.getLsbD 0, resStale := false
        status := st, cksum := ck, acc := st ++ ck, t0 := s.env.now }

/-- R192 and R201: `SET_STATUS_BIT` reads the status, sends the new byte, and leaves the cached mode as read. -/
def Obligations.SetStatusBitWritesTheNewByte : Prop :=
  ∀ (s : State) (bit : BitVec 3) (val : Bool) (st ck : Byte) (rest : List Act),
    s.blk.busy = false → s.blk.ready = true →
    s.env.script = .host (.write 0 (0x4000#32 ||| (BitVec.ofBool val).setWidth 32 <<< 9 ||| bit.setWidth 32 <<< 6)) ::
      (answerStatusRead st ck ++ answerStatusWrite ++ rest) →
    ∃ t, runsTo (1 + (answerStatusRead st ck ++ answerStatusWrite).length) s t ∧ t.env.script = rest ∧
      t.env.now = s.env.now ∧
      t.blk =
        { (s.blk.cleared (0x4000#16 ||| (BitVec.ofBool val).setWidth 16 <<< 9 ||| bit.setWidth 16 <<< 6) false).finished
            false with
          ackCnt := 3, stValid := false, resMode := st.getLsbD 0, resStale := true
          status := st, cksum := ck, statw := newStatus st bit val, acc := st ++ ck, t0 := s.env.now }

/-- R194 to R197 and R205: the four wrappers: their bit and value, the write, and the refresh from what the sensor then
reports. -/
def Obligations.WrappersWriteAndRefresh : Prop :=
  ∀ (s : State) (word : Half) (bit : BitVec 3) (val : Bool) (st ck st' ck' : Byte) (rest : List Act),
    s.blk.busy = false → s.blk.ready = true →
    (word, bit, val) ∈
      [(0x5000#16, 0#3, true), (0x6000, 0, false), (0x7200, 2, true), (0x7000, 2, false), (0x8200, 1, false),
        (0x8000, 1, true)] →
    s.env.script = .host (.write 0 (word.setWidth 32)) ::
      (answerStatusRead st ck ++ answerStatusWrite ++ answerStatusRead st' ck' ++ rest) →
    ∃ t, runsTo (1 + (answerStatusRead st ck ++ answerStatusWrite ++ answerStatusRead st' ck').length) s t ∧
      t.env.script = rest ∧ t.env.now = s.env.now ∧
      t.blk = { (s.blk.cleared word false).finished false with
        ackCnt := 4, stValid := true, resMode := st'.getLsbD 0, resStale := false
        status := st', cksum := ck', statw := newStatus st bit val, acc := st' ++ ck', t0 := s.env.now }

/-- R223 and R225: `READ_TEMP` in either face: the raw code, and the temperature with the cached resolution mode. -/
def Obligations.ReadTempMeasuresAndCalibrates : Prop :=
  ∀ (s : State) (face : Bool) (raw : Half) (rest : List Act), s.blk.busy = false → s.blk.ready = true →
    s.env.script = .host (.write 0 (if face then 0x9800 else 0x9000)) :: (answerMeasure raw ++ rest) →
    ∃ t, runsTo (1 + (answerMeasure raw).length) s t ∧ t.env.script = rest ∧ t.env.now = s.env.now ∧
      t.blk = { (s.blk.cleared (if face then 0x9800 else 0x9000) face).finished true with
        ackCnt := 1, raw := raw, acc := raw, t0 := s.env.now, tValid := true
        temp := BitVec.ofInt 32 (-3970 + (if s.blk.resMode then 4 else 1) * raw.toNat) }

/-- R226: `READ_HUMID` with a supplied temperature, in either face. -/
def Obligations.ReadHumidWithSuppliedTemperature : Prop :=
  ∀ (s : State) (face : Bool) (raw : Half) (rest : List Act), s.blk.busy = false → s.blk.ready = true →
    s.env.script = .host (.write 0 (if face then 0xAC00 else 0xA400)) :: (answerMeasure raw ++ rest) →
    ∃ t, runsTo (1 + (answerMeasure raw).length) s t ∧ t.env.script = rest ∧ t.env.now = s.env.now ∧
      t.blk = { (s.blk.cleared (if face then 0xAC00 else 0xA400) face).finished true with
        ackCnt := 1, raw := raw, acc := raw, t0 := s.env.now
        tValid := true, tSrc := true, temp := s.blk.argTemp.signExtend 32
        hValid := true, humid := calRH raw (s.blk.argTemp.signExtend 32) s.blk.resMode }

/-- R227: `READ_HUMID` without a temperature, in either face: two transactions, temperature first, one outcome. -/
def Obligations.ReadHumidWithNestedMeasurement : Prop :=
  ∀ (s : State) (face : Bool) (rawT rawH : Half) (rest : List Act), s.blk.busy = false → s.blk.ready = true →
    s.env.script = .host (.write 0 (if face then 0xA800 else 0xA000)) ::
      (answerMeasure rawT ++ answerMeasure rawH ++ rest) →
    ∃ t, runsTo (1 + (answerMeasure rawT ++ answerMeasure rawH).length) s t ∧ t.env.script = rest ∧
      t.env.now = s.env.now ∧
      t.blk = { (s.blk.cleared (if face then 0xA800 else 0xA000) face).finished true with
        ackCnt := 2, raw := rawH, acc := rawH, t0 := s.env.now
        tValid := true, temp := calT rawT s.blk.resMode
        hValid := true, humid := calRH rawH (calT rawT s.blk.resMode) s.blk.resMode }

/-- R257 and R258: the two calibration operations: one step after acceptance, no wire event, the pins and `RESMODE`
untouched, on a block that need not be constructed. -/
def Obligations.CalibrationOperationsAreOneStep : Prop :=
  ∀ (s : State) (res : Bool) (rest : List Act), s.blk.busy = false →
    (s.env.script = .host (.write 0 (if res then 0xB020 else 0xB000)) :: .seq :: rest →
      trace 2 s = [] ∧
      ∃ t, runsTo 2 s t ∧ t.env.script = rest ∧
        t.blk = { s.blk.cleared (if res then 0xB020 else 0xB000) false with
          state := .done, done := true, step := Position.empty, raw := s.blk.argRaw, tValid := true
          temp := BitVec.ofInt 32 (-3970 + (if res then 4 else 1) * s.blk.argRaw.toNat) }) ∧
    (s.env.script = .host (.write 0 (if res then 0xC020 else 0xC000)) :: .seq :: rest →
      trace 2 s = [] ∧
      ∃ t, runsTo 2 s t ∧ t.env.script = rest ∧
        t.blk = { s.blk.cleared (if res then 0xC020 else 0xC000) false with
          state := .done, done := true, step := Position.empty, raw := s.blk.argRaw
          tValid := true, tSrc := true, temp := s.blk.argTemp.signExtend 32
          hValid := true, humid := calRH s.blk.argRaw (s.blk.argTemp.signExtend 32) res })

/-- R95: the wire traces of the four transactions that succeed, and their clock pulses: status read 29, status write 20,
measurement 28, soft reset 10.  A temperature measurement sends 0x03, a humidity measurement 0x05; a humidity read without
a temperature has both transactions, temperature first (R227). -/
def Obligations.TransactionTracesAndPulses : Prop :=
  (∀ (s : State) (st ck : Byte) (rest : List Act), s.blk.busy = false → s.blk.ready = true →
    s.env.script = .host (.write 0 0x3000) :: (answerStatusRead st ck ++ rest) →
    trace (1 + (answerStatusRead st ck).length) s =
      pinTrace (startSeq ++ sendByte 0x07) ++ handshakeTrace s.env.now ++ byteTrace st
        ++ pinTrace [.data false, .clk true, .clk false] ++ byteTrace ck
        ++ pinTrace [.data false, .clk true, .clk false] ∧
    clockPulses (trace (1 + (answerStatusRead st ck).length) s) = 29) ∧
  (∀ (s : State) (bit : BitVec 3) (val : Bool) (st ck : Byte) (rest : List Act),
    s.blk.busy = false → s.blk.ready = true →
    s.env.script = .host (.write 0 (0x4000#32 ||| (BitVec.ofBool val).setWidth 32 <<< 9 ||| bit.setWidth 32 <<< 6)) ::
      (answerStatusRead st ck ++ answerStatusWrite ++ rest) →
    (trace (1 + (answerStatusRead st ck ++ answerStatusWrite).length) s).drop 94 =
      pinTrace (startSeq ++ sendByte 0x06) ++ handshakeTrace s.env.now
        ++ pinTrace (sendByte (newStatus st bit val)) ++ handshakeTrace s.env.now ∧
    clockPulses (trace (1 + (answerStatusRead st ck ++ answerStatusWrite).length) s) = 29 + 20) ∧
  (∀ (s : State) (face : Bool) (raw : Half) (rest : List Act), s.blk.busy = false → s.blk.ready = true →
    s.env.script = .host (.write 0 (if face then 0x9800 else 0x9000)) :: (answerMeasure raw ++ rest) →
    trace (1 + (answerMeasure raw).length) s = measureTrace 0x03 s.env.now raw ∧
    clockPulses (trace (1 + (answerMeasure raw).length) s) = 28) ∧
  (∀ (s : State) (face : Bool) (raw : Half) (rest : List Act), s.blk.busy = false → s.blk.ready = true →
    s.env.script = .host (.write 0 (if face then 0xAC00 else 0xA400)) :: (answerMeasure raw ++ rest) →
    trace (1 + (answerMeasure raw).length) s = measureTrace 0x05 s.env.now raw ∧
    clockPulses (trace (1 + (answerMeasure raw).length) s) = 28) ∧
  (∀ (s : State) (face : Bool) (rawT rawH : Half) (rest : List Act), s.blk.busy = false → s.blk.ready = true →
    s.env.script = .host (.write 0 (if face then 0xA800 else 0xA000)) ::
      (answerMeasure rawT ++ answerMeasure rawH ++ rest) →
    trace (1 + (answerMeasure rawT ++ answerMeasure rawH).length) s =
      measureTrace 0x03 s.env.now rawT ++ measureTrace 0x05 s.env.now rawH ∧
    clockPulses (trace (1 + (answerMeasure rawT ++ answerMeasure rawH).length) s) = 28 + 28) ∧
  (∀ (s : State) (rest : List Act), s.blk.busy = false → s.blk.ready = true →
    s.env.script = .host (.write 0 0x2000) :: (answerSoftReset ++ rest) →
    trace (1 + answerSoftReset.length) s =
      pinTrace (startSeq ++ sendByte 0x1E) ++ [.time s.env.now, .time (s.env.now + 11)] ∧
    clockPulses (trace (1 + answerSoftReset.length) s) = 10)

/-- R227 and R285: the nested temperature measurement times out, and the humidity read fails with that error: no
humidity command, no valid temperature, no valid humidity. -/
def Obligations.NestedTimeoutFailsTheHumidityRead : Prop :=
  ∀ (s : State) (face : Bool) (d : Time) (rest : List Act), s.blk.busy = false → s.blk.ready = true →
    s.blk.measTmo.toNat ≤ d.toNat →
    s.env.script = .host (.write 0 (if face then 0xA800 else 0xA000)) ::
      (clocks 32 ++ answerAck ++ clocks 2 ++ silentRounds [d] ++ rest) →
    ∃ t, runsTo (1 + (clocks 32 ++ answerAck ++ clocks 2 ++ silentRounds [d]).length) s t ∧ t.env.script = rest ∧
      t.blk = { (s.blk.cleared (if face then 0xA800 else 0xA000) face).failedWith .measurementTimeout 6 with
        ackCnt := 1, t0 := s.env.now
        clkOut := false, clkDir := .out, dataOut := false, dataDir := .inp }

/-- R199 and R286: the status read of `INIT` misses its handshake: `ConstructionFailure` at site 1, the session not
constructed, the soft reset's `RES_STALE` left. -/
def Obligations.InitWithoutAckFailsConstruction : Prop :=
  ∀ (s : State) (d : Time) (rest : List Act), s.blk.busy = false → s.blk.ackTmo.toNat ≤ d.toNat →
    s.env.script = .host (.write 0 0x1000) ::
      (answerSoftReset ++ clocks 34 ++ silentRounds [d] ++ clocks 1 ++ rest) →
    ∃ t, runsTo (1 + (answerSoftReset ++ clocks 34 ++ silentRounds [d] ++ clocks 1).length) s t ∧
      t.env.script = rest ∧
      t.blk = { (s.blk.cleared 0x1000 false).failedWith .constructionFailure 1 with
        ready := false, resMode := false, resStale := true, t0 := s.env.now + 11
        clkOut := false, clkDir := .out, dataOut := false, dataDir := .out }

/-- R288, rows of the status operations: what a missed handshake leaves, the whole block.  `GET_STATUS` fails at site 1; a
status write at site 1 of its first read, at sites 2 and 3, and a wrapper at site 1 of its refresh, with `ACKCNT` 3,
`RES_STALE` 1 and the mode of the first read (R205). -/
def Obligations.StatusFailuresLeaveTheirRecord : Prop :=
  (∀ (s : State) (d : Time) (rest : List Act), s.blk.busy = false → s.blk.ready = true →
    s.blk.ackTmo.toNat ≤ d.toNat →
    s.env.script = .host (.write 0 0x3000) :: (clocks 32 ++ missAck d ++ rest) →
    ∃ t, runsTo (1 + (clocks 32 ++ missAck d).length) s t ∧ t.env.script = rest ∧
      t.blk = { (s.blk.cleared 0x3000 false).parked 1 with t0 := s.env.now }) ∧
  ∀ (s : State) (word : Half) (bit : BitVec 3) (val refresh : Bool) (st ck : Byte) (d : Time) (rest : List Act),
    s.blk.busy = false → s.blk.ready = true → s.blk.ackTmo.toNat ≤ d.toNat → writesStatus word bit val refresh →
    (s.env.script = .host (.write 0 (word.setWidth 32)) :: (clocks 32 ++ missAck d ++ rest) →
      ∃ t, runsTo (1 + (clocks 32 ++ missAck d).length) s t ∧ t.env.script = rest ∧
        t.blk = { (s.blk.cleared word false).parked 1 with t0 := s.env.now }) ∧
    (s.env.script = .host (.write 0 (word.setWidth 32)) :: (answerStatusRead st ck ++ clocks 32 ++ missAck d ++ rest) →
      ∃ t, runsTo (1 + (answerStatusRead st ck ++ clocks 32 ++ missAck d).length) s t ∧ t.env.script = rest ∧
        t.blk = { (s.blk.cleared word false).parked 2 with
          ackCnt := 1, stValid := true, resMode := st.getLsbD 0, resStale := false
          status := st, cksum := ck, acc := st ++ ck, t0 := s.env.now }) ∧
    (s.env.script = .host (.write 0 (word.setWidth 32)) ::
        (answerStatusRead st ck ++ clocks 32 ++ answerAck ++ clocks 24 ++ missAck d ++ rest) →
      ∃ t, runsTo (1 + (answerStatusRead st ck ++ clocks 32 ++ answerAck ++ clocks 24 ++ missAck d).length) s t ∧
        t.env.script = rest ∧
        t.blk = { (s.blk.cleared word false).parked 3 with
          ackCnt := 2, stValid := false, resMode := st.getLsbD 0, resStale := true
          status := st, cksum := ck, statw := newStatus st bit val, acc := st ++ ck, t0 := s.env.now }) ∧
    (refresh = true →
      s.env.script = .host (.write 0 (word.setWidth 32)) ::
        (answerStatusRead st ck ++ answerStatusWrite ++ clocks 32 ++ missAck d ++ rest) →
      ∃ t, runsTo (1 + (answerStatusRead st ck ++ answerStatusWrite ++ clocks 32 ++ missAck d).length) s t ∧
        t.env.script = rest ∧
        t.blk = { (s.blk.cleared word false).parked 1 with
          ackCnt := 3, stValid := false, resMode := st.getLsbD 0, resStale := true
          status := st, cksum := ck, statw := newStatus st bit val, acc := st ++ ck, t0 := s.env.now })

/-- R288, rows of the read operations, but for the nested measurement that is never ready, which has a statement of its
own: what a missed handshake (sites 4 and 5) and a measurement that is never ready (sites 6 and 7) leave, the whole
block.  At sites 5 and 7 the compensation temperature stays valid, supplied (R226) or measured (R227). -/
def Obligations.MeasurementFailuresLeaveTheirRecord : Prop :=
  ∀ (s : State) (face : Bool) (raw : Half) (d : Time) (rest : List Act), s.blk.busy = false → s.blk.ready = true →
    (s.blk.ackTmo.toNat ≤ d.toNat →
      s.env.script = .host (.write 0 (if face then 0x9800 else 0x9000)) :: (clocks 32 ++ missAck d ++ rest) →
      ∃ t, runsTo (1 + (clocks 32 ++ missAck d).length) s t ∧ t.env.script = rest ∧
        t.blk = { (s.blk.cleared (if face then 0x9800 else 0x9000) face).parked 4 with t0 := s.env.now }) ∧
    (s.blk.measTmo.toNat ≤ d.toNat →
      s.env.script = .host (.write 0 (if face then 0x9800 else 0x9000)) ::
        (clocks 32 ++ answerAck ++ missReady d ++ rest) →
      ∃ t, runsTo (1 + (clocks 32 ++ answerAck ++ missReady d).length) s t ∧ t.env.script = rest ∧
        t.blk = { (s.blk.cleared (if face then 0x9800 else 0x9000) face).abandoned 6 with
          ackCnt := 1, t0 := s.env.now }) ∧
    (s.blk.ackTmo.toNat ≤ d.toNat →
      s.env.script = .host (.write 0 (if face then 0xAC00 else 0xA400)) :: (clocks 32 ++ missAck d ++ rest) →
      ∃ t, runsTo (1 + (clocks 32 ++ missAck d).length) s t ∧ t.env.script = rest ∧
        t.blk = { (s.blk.cleared (if face then 0xAC00 else 0xA400) face).parked 5 with
          tValid := true, tSrc := true, temp := s.blk.argTemp.signExtend 32, t0 := s.env.now }) ∧
    (s.blk.measTmo.toNat ≤ d.toNat →
      s.env.script = .host (.write 0 (if face then 0xAC00 else 0xA400)) ::
        (clocks 32 ++ answerAck ++ missReady d ++ rest) →
      ∃ t, runsTo (1 + (clocks 32 ++ answerAck ++ missReady d).length) s t ∧ t.env.script = rest ∧
        t.blk = { (s.blk.cleared (if face then 0xAC00 else 0xA400) face).abandoned 7 with
          ackCnt := 1, tValid := true, tSrc := true, temp := s.blk.argTemp.signExtend 32, t0 := s.env.now }) ∧
    (s.blk.ackTmo.toNat ≤ d.toNat →
      s.env.script = .host (.write 0 (if face then 0xA800 else 0xA000)) :: (clocks 32 ++ missAck d ++ rest) →
      ∃ t, runsTo (1 + (clocks 32 ++ missAck d).length) s t ∧ t.env.script = rest ∧
        t.blk = { (s.blk.cleared (if face then 0xA800 else 0xA000) face).parked 4 with t0 := s.env.now }) ∧
    (s.blk.ackTmo.toNat ≤ d.toNat →
      s.env.script = .host (.write 0 (if face then 0xA800 else 0xA000)) ::
        (answerMeasure raw ++ clocks 32 ++ missAck d ++ rest) →
      ∃ t, runsTo (1 + (answerMeasure raw ++ clocks 32 ++ missAck d).length) s t ∧ t.env.script = rest ∧
        t.blk = { (s.blk.cleared (if face then 0xA800 else 0xA000) face).parked 5 with
          ackCnt := 1, raw := raw, acc := raw, tValid := true, temp := calT raw s.blk.resMode, t0 := s.env.now }) ∧
    (s.blk.measTmo.toNat ≤ d.toNat →
      s.env.script = .host (.write 0 (if face then 0xA800 else 0xA000)) ::
        (answerMeasure raw ++ clocks 32 ++ answerAck ++ missReady d ++ rest) →
      ∃ t, runsTo (1 + (answerMeasure raw ++ clocks 32 ++ answerAck ++ missReady d).length) s t ∧
        t.env.script = rest ∧
        t.blk = { (s.blk.cleared (if face then 0xA800 else 0xA000) face).abandoned 7 with
          ackCnt := 2, raw := raw, acc := raw, tValid := true, temp := calT raw s.blk.resMode, t0 := s.env.now })

/-! ## Rules of the whole machine -/

/-- R32: a step of the sequencer is enabled exactly when `BUSY` is 1: otherwise its turn changes nothing; while it is, its
turn performs a wire event or ends the operation. -/
def Obligations.SequencerStepsExactlyWhileBusy : Prop :=
  ∀ (s : State) (rest : List Act), s.env.script = .seq :: rest →
    (s.blk.busy = false → step s = .next (s.movedOn rest)) ∧
    (s.blk.busy = true → s.Inv →
      ∃ t, step s = .next t ∧ t.env.script = rest ∧ (t.env.event.isSome = true ∨ t.blk.busy = false))

/-- The block after reset has the invariant (R56, R58). -/
def Obligations.InvHoldsAtReset : Prop := State.reset.Inv

/-- Every step of every agent keeps the invariant: items 1 to 6 and 8 of R58, with what makes them inductive. -/
def Obligations.EveryStepKeepsInv : Prop :=
  ∀ s t : State, s.Inv → step s = .next t → t.Inv

/-- No state with the invariant faults or refuses: DATA is an input at every sample (R124), and every operation has its
meaning. -/
def Obligations.NoStopUnderInv : Prop :=
  ∀ s : State, s.Inv → ∃ t, step s = .next t

/-- R58 item 7: `CLK_DIR`, once `OUT`, stays `OUT` until reset. -/
def Obligations.ClockStaysDrivenUntilReset : Prop :=
  ∀ s t : State, step s = .next t → (∀ rest, s.env.script ≠ .reset :: rest) → s.blk.clkDir = .out → t.blk.clkDir = .out

/-- R21, R323 and R333: only a step of the sequencer while `BUSY` is 1 writes the pins or performs a wire event, reset
aside. -/
def Obligations.PinsMoveOnlyWhileBusy : Prop :=
  ∀ s t : State, step s = .next t → (∀ rest, s.env.script ≠ .reset :: rest) →
    (s.blk.busy = false ∨ ∃ a rest, s.env.script = a :: rest ∧ a ≠ .seq) →
    t.env.event = none ∧ t.blk.clkOut = s.blk.clkOut ∧ t.blk.clkDir = s.blk.clkDir ∧
      t.blk.dataOut = s.blk.dataOut ∧ t.blk.dataDir = s.blk.dataDir

/-- The frame of every scripted step of the sequencer (R338 seen from the other side): it writes no control or operand
register, neither the accepted word nor its face, neither `REJECT` nor `IRQ_EN`, and no environment input. -/
def Obligations.SequencerKeepsTheHostsRegisters : Prop :=
  ∀ (s t : State) (rest : List Act), s.env.script = .seq :: rest → step s = .next t →
    t.blk.cmdl = s.blk.cmdl ∧ t.blk.face = s.blk.face ∧ t.blk.irqEn = s.blk.irqEn ∧ t.blk.reject = s.blk.reject ∧
    t.blk.ackTmo = s.blk.ackTmo ∧ t.blk.measTmo = s.blk.measTmo ∧ t.blk.argTemp = s.blk.argTemp ∧
    t.blk.argRaw = s.blk.argRaw ∧ t.env.sensorPull = s.env.sensorPull ∧ t.env.now = s.env.now ∧
    t.env.rdata = s.env.rdata ∧ t.env.script = rest

/-- R38, R78 and R199: `RESMODE` changes only by reset, by the acceptance of `INIT`, which clears it, or by the
sequencer's step that carries the assignment ending a successful status read, which makes it `STATUS[0]`. -/
def Obligations.ResModeChangesOnlyByStatusRead : Prop :=
  ∀ s t : State, s.Inv → step s = .next t → t.blk.resMode ≠ s.blk.resMode →
    (∃ rest, s.env.script = .reset :: rest) ∨
    (∃ v rest, s.env.script = .host (.write 0 v) :: rest ∧ v.extractLsb' 0 16 = 0x1000 ∧
      s.blk.busy = false ∧ t.blk.busy = true ∧ t.blk.cmdl = 0x1000 ∧ t.blk.resMode = false) ∨
    ((s.env.script = [] ∨ ∃ rest, s.env.script = .seq :: rest) ∧ s.blk.busy = true ∧
      carries s.blk.step.todo .refreshMode ∧ t.blk.resMode = t.blk.status.getLsbD 0)

/-- R35: `REJECT` is set only by a host write and cleared only by `CLR_REJECT` and by reset. -/
def Obligations.RejectIsSticky : Prop :=
  ∀ s t : State, step s = .next t →
    (s.blk.reject = true → t.blk.reject = false →
      (∃ rest, s.env.script = .reset :: rest) ∨
      ∃ v rest, s.env.script = .host (.write 2 v) :: rest ∧ v.getLsbD 1 = true) ∧
    (s.blk.reject = false → t.blk.reject = true → ∃ r v rest, s.env.script = .host (.write r v) :: rest)

/-- R287: `IRQ_PEND` rises only in the terminal step of an operation accepted with `FACE = 1`, and the line is
`IRQ_PEND and IRQ_EN`. -/
def Obligations.InterruptRisesOnlyAtCompletion : Prop :=
  ∀ s t : State, step s = .next t →
    t.blk.irq = (t.blk.irqPend && t.blk.irqEn) ∧
    (s.blk.irqPend = false → t.blk.irqPend = true →
      s.blk.busy = true ∧ t.blk.busy = false ∧ t.blk.done = true ∧ s.blk.face = true)

/-- R230: an operation ends in exactly one of completion and failure, and once it has ended neither the sequencer, nor a
late level on DATA, nor the passing of time changes the block. -/
def Obligations.ExactlyOneOutcome : Prop :=
  (∀ s t : State, s.Inv → s.blk.busy = true → step s = .next t → t.blk.busy = false →
    (∀ rest, s.env.script ≠ .reset :: rest) →
    t.blk.done = true ∧
      ((t.blk.state = .done ∧ t.blk.errKind = .noError) ∨
        (t.blk.state = .failed ∧ t.blk.errKind ≠ .noError ∧ t.blk.hValid = false))) ∧
  (∀ (s : State) (a : Act) (rest : List Act), s.blk.busy = false → s.env.script = a :: rest →
    (a = .seq ∨ (∃ pull, a = .sensor pull) ∨ ∃ n, a = .tick n) → ∃ t, step s = .next t ∧ t.blk = s.blk)

/-- R35, R39 and R174: no rule reads `CKSUM`, `RES_STALE` or `REJECT`: two machines that differ only there (and in what
the host has read) do the same, and differ only there afterwards. -/
def Obligations.InformationalStateNeverFlows : Prop :=
  ∀ s u : State, s.blk.agrees u.blk → s.env.agrees u.env →
    (∃ t v, step s = .next t ∧ step u = .next v ∧ t.blk.agrees v.blk ∧ t.env.agrees v.env) ∨
    (step s = .fault .sampleWhileDriven ∧ step u = .fault .sampleWhileDriven)

/-- R341: where the sequencer keeps stepping and `NOW` keeps advancing, by 1 to 65536 ticks between steps, every running
operation reaches a terminal state, whatever the sensor does. -/
def Obligations.EveryOperationTerminates : Prop :=
  ∀ s : State, s.Inv → s.blk.busy = true →
    ∃ n : Nat, ∀ moves : List (Bool × Time), n ≤ moves.length →
      (∀ m ∈ moves, 1 ≤ m.2.toNat ∧ m.2.toNat ≤ 65536) →
      ∃ (k : Nat) (t : State), k ≤ 3 * moves.length ∧
        runsTo k { s with env := { s.env with script := liveRounds moves } } t ∧
        t.blk.busy = false ∧ (t.blk.state = .done ∨ t.blk.state = .failed)

end
end

