-- ==== Sys2Proof/Laws/State.lean ====
section
/-! SUPPORT. The field lemmas of the block's updates: each update once for each field, true by `rfl`, so that no later
proof unfolds a record update. -/

namespace Sys2Proof.Machine

variable (b : Block)


/-! ## `moveTo` (R32) -/

@[simp] theorem moveTo_clkOut (todo : List Micro) : (b.moveTo todo).clkOut = b.clkOut := rfl
@[simp] theorem moveTo_clkDir (todo : List Micro) : (b.moveTo todo).clkDir = b.clkDir := rfl
@[simp] theorem moveTo_dataOut (todo : List Micro) : (b.moveTo todo).dataOut = b.dataOut := rfl
@[simp] theorem moveTo_dataDir (todo : List Micro) : (b.moveTo todo).dataDir = b.dataDir := rfl
@[simp] theorem moveTo_state (todo : List Micro) : (b.moveTo todo).state = b.state := rfl
@[simp] theorem moveTo_cmdl (todo : List Micro) : (b.moveTo todo).cmdl = b.cmdl := rfl
@[simp] theorem moveTo_step (todo : List Micro) : (b.moveTo todo).step = { b.step with todo := todo } := rfl
@[simp] theorem moveTo_acc (todo : List Micro) : (b.moveTo todo).acc = b.acc := rfl
@[simp] theorem moveTo_t0 (todo : List Micro) : (b.moveTo todo).t0 = b.t0 := rfl
@[simp] theorem moveTo_busy (todo : List Micro) : (b.moveTo todo).busy = b.busy := rfl
@[simp] theorem moveTo_done (todo : List Micro) : (b.moveTo todo).done = b.done := rfl
@[simp] theorem moveTo_ready (todo : List Micro) : (b.moveTo todo).ready = b.ready := rfl
@[simp] theorem moveTo_reject (todo : List Micro) : (b.moveTo todo).reject = b.reject := rfl
@[simp] theorem moveTo_irqPend (todo : List Micro) : (b.moveTo todo).irqPend = b.irqPend := rfl
@[simp] theorem moveTo_irqEn (todo : List Micro) : (b.moveTo todo).irqEn = b.irqEn := rfl
@[simp] theorem moveTo_errKind (todo : List Micro) : (b.moveTo todo).errKind = b.errKind := rfl
@[simp] theorem moveTo_errSite (todo : List Micro) : (b.moveTo todo).errSite = b.errSite := rfl
@[simp] theorem moveTo_ackCnt (todo : List Micro) : (b.moveTo todo).ackCnt = b.ackCnt := rfl
@[simp] theorem moveTo_tValid (todo : List Micro) : (b.moveTo todo).tValid = b.tValid := rfl
@[simp] theorem moveTo_tSrc (todo : List Micro) : (b.moveTo todo).tSrc = b.tSrc := rfl
@[simp] theorem moveTo_hValid (todo : List Micro) : (b.moveTo todo).hValid = b.hValid := rfl
@[simp] theorem moveTo_stValid (todo : List Micro) : (b.moveTo todo).stValid = b.stValid := rfl
@[simp] theorem moveTo_resMode (todo : List Micro) : (b.moveTo todo).resMode = b.resMode := rfl
@[simp] theorem moveTo_resStale (todo : List Micro) : (b.moveTo todo).resStale = b.resStale := rfl
@[simp] theorem moveTo_watchArmed (todo : List Micro) : (b.moveTo todo).watchArmed = b.watchArmed := rfl
@[simp] theorem moveTo_timerArmed (todo : List Micro) : (b.moveTo todo).timerArmed = b.timerArmed := rfl
@[simp] theorem moveTo_face (todo : List Micro) : (b.moveTo todo).face = b.face := rfl
@[simp] theorem moveTo_nest (todo : List Micro) : (b.moveTo todo).nest = b.nest := rfl
@[simp] theorem moveTo_ackTmo (todo : List Micro) : (b.moveTo todo).ackTmo = b.ackTmo := rfl
@[simp] theorem moveTo_measTmo (todo : List Micro) : (b.moveTo todo).measTmo = b.measTmo := rfl
@[simp] theorem moveTo_argTemp (todo : List Micro) : (b.moveTo todo).argTemp = b.argTemp := rfl
@[simp] theorem moveTo_argRaw (todo : List Micro) : (b.moveTo todo).argRaw = b.argRaw := rfl
@[simp] theorem moveTo_status (todo : List Micro) : (b.moveTo todo).status = b.status := rfl
@[simp] theorem moveTo_cksum (todo : List Micro) : (b.moveTo todo).cksum = b.cksum := rfl
@[simp] theorem moveTo_statw (todo : List Micro) : (b.moveTo todo).statw = b.statw := rfl
@[simp] theorem moveTo_raw (todo : List Micro) : (b.moveTo todo).raw = b.raw := rfl
@[simp] theorem moveTo_temp (todo : List Micro) : (b.moveTo todo).temp = b.temp := rfl
@[simp] theorem moveTo_humid (todo : List Micro) : (b.moveTo todo).humid = b.humid := rfl

/-! ## `fail` (R229) -/

@[simp] theorem fail_clkOut (kind : ErrKind) (site : BitVec 3) : (b.fail kind site).clkOut = b.clkOut := rfl
@[simp] theorem fail_clkDir (kind : ErrKind) (site : BitVec 3) : (b.fail kind site).clkDir = b.clkDir := rfl
@[simp] theorem fail_dataOut (kind : ErrKind) (site : BitVec 3) : (b.fail kind site).dataOut = b.dataOut := rfl
@[simp] theorem fail_dataDir (kind : ErrKind) (site : BitVec 3) : (b.fail kind site).dataDir = b.dataDir := rfl
@[simp] theorem fail_state (kind : ErrKind) (site : BitVec 3) : (b.fail kind site).state = .failed := rfl
@[simp] theorem fail_cmdl (kind : ErrKind) (site : BitVec 3) : (b.fail kind site).cmdl = b.cmdl := rfl
@[simp] theorem fail_step (kind : ErrKind) (site : BitVec 3) : (b.fail kind site).step = Position.empty := rfl
@[simp] theorem fail_acc (kind : ErrKind) (site : BitVec 3) : (b.fail kind site).acc = b.acc := rfl
@[simp] theorem fail_t0 (kind : ErrKind) (site : BitVec 3) : (b.fail kind site).t0 = b.t0 := rfl
@[simp] theorem fail_busy (kind : ErrKind) (site : BitVec 3) : (b.fail kind site).busy = false := rfl
@[simp] theorem fail_done (kind : ErrKind) (site : BitVec 3) : (b.fail kind site).done = true := rfl
@[simp] theorem fail_ready (kind : ErrKind) (site : BitVec 3) : (b.fail kind site).ready = b.ready := rfl
@[simp] theorem fail_reject (kind : ErrKind) (site : BitVec 3) : (b.fail kind site).reject = b.reject := rfl
@[simp] theorem fail_irqPend (kind : ErrKind) (site : BitVec 3) : (b.fail kind site).irqPend = (b.irqPend || b.face) := rfl
@[simp] theorem fail_irqEn (kind : ErrKind) (site : BitVec 3) : (b.fail kind site).irqEn = b.irqEn := rfl
@[simp] theorem fail_errKind (kind : ErrKind) (site : BitVec 3) : (b.fail kind site).errKind = kind := rfl
@[simp] theorem fail_errSite (kind : ErrKind) (site : BitVec 3) : (b.fail kind site).errSite = site := rfl
@[simp] theorem fail_ackCnt (kind : ErrKind) (site : BitVec 3) : (b.fail kind site).ackCnt = b.ackCnt := rfl
@[simp] theorem fail_tValid (kind : ErrKind) (site : BitVec 3) : (b.fail kind site).tValid = (b.tValid && !(b.isReadTemp || b.nest)) := rfl
@[simp] theorem fail_tSrc (kind : ErrKind) (site : BitVec 3) : (b.fail kind site).tSrc = b.tSrc := rfl
@[simp] theorem fail_hValid (kind : ErrKind) (site : BitVec 3) : (b.fail kind site).hValid = false := rfl
@[simp] theorem fail_stValid (kind : ErrKind) (site : BitVec 3) : (b.fail kind site).stValid = b.stValid := rfl
@[simp] theorem fail_resMode (kind : ErrKind) (site : BitVec 3) : (b.fail kind site).resMode = b.resMode := rfl
@[simp] theorem fail_resStale (kind : ErrKind) (site : BitVec 3) : (b.fail kind site).resStale = b.resStale := rfl
@[simp] theorem fail_watchArmed (kind : ErrKind) (site : BitVec 3) : (b.fail kind site).watchArmed = false := rfl
@[simp] theorem fail_timerArmed (kind : ErrKind) (site : BitVec 3) : (b.fail kind site).timerArmed = false := rfl
@[simp] theorem fail_face (kind : ErrKind) (site : BitVec 3) : (b.fail kind site).face = b.face := rfl
@[simp] theorem fail_nest (kind : ErrKind) (site : BitVec 3) : (b.fail kind site).nest = false := rfl
@[simp] theorem fail_ackTmo (kind : ErrKind) (site : BitVec 3) : (b.fail kind site).ackTmo = b.ackTmo := rfl
@[simp] theorem fail_measTmo (kind : ErrKind) (site : BitVec 3) : (b.fail kind site).measTmo = b.measTmo := rfl
@[simp] theorem fail_argTemp (kind : ErrKind) (site : BitVec 3) : (b.fail kind site).argTemp = b.argTemp := rfl
@[simp] theorem fail_argRaw (kind : ErrKind) (site : BitVec 3) : (b.fail kind site).argRaw = b.argRaw := rfl
@[simp] theorem fail_status (kind : ErrKind) (site : BitVec 3) : (b.fail kind site).status = b.status := rfl
@[simp] theorem fail_cksum (kind : ErrKind) (site : BitVec 3) : (b.fail kind site).cksum = b.cksum := rfl
@[simp] theorem fail_statw (kind : ErrKind) (site : BitVec 3) : (b.fail kind site).statw = b.statw := rfl
@[simp] theorem fail_raw (kind : ErrKind) (site : BitVec 3) : (b.fail kind site).raw = b.raw := rfl
@[simp] theorem fail_temp (kind : ErrKind) (site : BitVec 3) : (b.fail kind site).temp = b.temp := rfl
@[simp] theorem fail_humid (kind : ErrKind) (site : BitVec 3) : (b.fail kind site).humid = b.humid := rfl

/-! ## `complete` (R228) -/

@[simp] theorem complete_clkOut : (b.complete).clkOut = b.clkOut := rfl
@[simp] theorem complete_clkDir : (b.complete).clkDir = b.clkDir := rfl
@[simp] theorem complete_dataOut : (b.complete).dataOut = b.dataOut := rfl
@[simp] theorem complete_dataDir : (b.complete).dataDir = b.dataDir := rfl
@[simp] theorem complete_state : (b.complete).state = .done := rfl
@[simp] theorem complete_cmdl : (b.complete).cmdl = b.cmdl := rfl
@[simp] theorem complete_step : (b.complete).step = Position.empty := rfl
@[simp] theorem complete_acc : (b.complete).acc = b.acc := rfl
@[simp] theorem complete_t0 : (b.complete).t0 = b.t0 := rfl
@[simp] theorem complete_busy : (b.complete).busy = false := rfl
@[simp] theorem complete_done : (b.complete).done = true := rfl
@[simp] theorem complete_ready : (b.complete).ready = b.ready := rfl
@[simp] theorem complete_reject : (b.complete).reject = b.reject := rfl
@[simp] theorem complete_irqPend : (b.complete).irqPend = (b.irqPend || b.face) := rfl
@[simp] theorem complete_irqEn : (b.complete).irqEn = b.irqEn := rfl
@[simp] theorem complete_errKind : (b.complete).errKind = b.errKind := rfl
@[simp] theorem complete_errSite : (b.complete).errSite = b.errSite := rfl
@[simp] theorem complete_ackCnt : (b.complete).ackCnt = b.ackCnt := rfl
@[simp] theorem complete_tValid : (b.complete).tValid = b.tValid := rfl
@[simp] theorem complete_tSrc : (b.complete).tSrc = b.tSrc := rfl
@[simp] theorem complete_hValid : (b.complete).hValid = b.hValid := rfl
@[simp] theorem complete_stValid : (b.complete).stValid = b.stValid := rfl
@[simp] theorem complete_resMode : (b.complete).resMode = b.resMode := rfl
@[simp] theorem complete_resStale : (b.complete).resStale = b.resStale := rfl
@[simp] theorem complete_watchArmed : (b.complete).watchArmed = b.watchArmed := rfl
@[simp] theorem complete_timerArmed : (b.complete).timerArmed = b.timerArmed := rfl
@[simp] theorem complete_face : (b.complete).face = b.face := rfl
@[simp] theorem complete_nest : (b.complete).nest = b.nest := rfl
@[simp] theorem complete_ackTmo : (b.complete).ackTmo = b.ackTmo := rfl
@[simp] theorem complete_measTmo : (b.complete).measTmo = b.measTmo := rfl
@[simp] theorem complete_argTemp : (b.complete).argTemp = b.argTemp := rfl
@[simp] theorem complete_argRaw : (b.complete).argRaw = b.argRaw := rfl
@[simp] theorem complete_status : (b.complete).status = b.status := rfl
@[simp] theorem complete_cksum : (b.complete).cksum = b.cksum := rfl
@[simp] theorem complete_statw : (b.complete).statw = b.statw := rfl
@[simp] theorem complete_raw : (b.complete).raw = b.raw := rfl
@[simp] theorem complete_temp : (b.complete).temp = b.temp := rfl
@[simp] theorem complete_humid : (b.complete).humid = b.humid := rfl

/-! ## `accept` (R222) -/

@[simp] theorem accept_clkOut (w : Half) (body : Position) (first : SeqState) : (b.accept w body first).clkOut = b.clkOut := rfl
@[simp] theorem accept_clkDir (w : Half) (body : Position) (first : SeqState) : (b.accept w body first).clkDir = b.clkDir := rfl
@[simp] theorem accept_dataOut (w : Half) (body : Position) (first : SeqState) : (b.accept w body first).dataOut = b.dataOut := rfl
@[simp] theorem accept_dataDir (w : Half) (body : Position) (first : SeqState) : (b.accept w body first).dataDir = b.dataDir := rfl
@[simp] theorem accept_state (w : Half) (body : Position) (first : SeqState) : (b.accept w body first).state = first := rfl
@[simp] theorem accept_cmdl (w : Half) (body : Position) (first : SeqState) : (b.accept w body first).cmdl = w := rfl
@[simp] theorem accept_step (w : Half) (body : Position) (first : SeqState) : (b.accept w body first).step = body := rfl
@[simp] theorem accept_acc (w : Half) (body : Position) (first : SeqState) : (b.accept w body first).acc = b.acc := rfl
@[simp] theorem accept_t0 (w : Half) (body : Position) (first : SeqState) : (b.accept w body first).t0 = b.t0 := rfl
@[simp] theorem accept_busy (w : Half) (body : Position) (first : SeqState) : (b.accept w body first).busy = true := rfl
@[simp] theorem accept_done (w : Half) (body : Position) (first : SeqState) : (b.accept w body first).done = false := rfl
@[simp] theorem accept_ready (w : Half) (body : Position) (first : SeqState) : (b.accept w body first).ready = (b.ready && !isConstruction w) := rfl
@[simp] theorem accept_reject (w : Half) (body : Position) (first : SeqState) : (b.accept w body first).reject = b.reject := rfl
@[simp] theorem accept_irqPend (w : Half) (body : Position) (first : SeqState) : (b.accept w body first).irqPend = false := rfl
@[simp] theorem accept_irqEn (w : Half) (body : Position) (first : SeqState) : (b.accept w body first).irqEn = b.irqEn := rfl
@[simp] theorem accept_errKind (w : Half) (body : Position) (first : SeqState) : (b.accept w body first).errKind = .noError := rfl
@[simp] theorem accept_errSite (w : Half) (body : Position) (first : SeqState) : (b.accept w body first).errSite = 0 := rfl
@[simp] theorem accept_ackCnt (w : Half) (body : Position) (first : SeqState) : (b.accept w body first).ackCnt = 0 := rfl
@[simp] theorem accept_tValid (w : Half) (body : Position) (first : SeqState) : (b.accept w body first).tValid = takesArgTemp w := rfl
@[simp] theorem accept_tSrc (w : Half) (body : Position) (first : SeqState) : (b.accept w body first).tSrc = takesArgTemp w := rfl
@[simp] theorem accept_hValid (w : Half) (body : Position) (first : SeqState) : (b.accept w body first).hValid = false := rfl
@[simp] theorem accept_stValid (w : Half) (body : Position) (first : SeqState) : (b.accept w body first).stValid = false := rfl
@[simp] theorem accept_resMode (w : Half) (body : Position) (first : SeqState) : (b.accept w body first).resMode = (b.resMode && !isConstruction w) := rfl
@[simp] theorem accept_resStale (w : Half) (body : Position) (first : SeqState) : (b.accept w body first).resStale = b.resStale := rfl
@[simp] theorem accept_watchArmed (w : Half) (body : Position) (first : SeqState) : (b.accept w body first).watchArmed = false := rfl
@[simp] theorem accept_timerArmed (w : Half) (body : Position) (first : SeqState) : (b.accept w body first).timerArmed = false := rfl
@[simp] theorem accept_face (w : Half) (body : Position) (first : SeqState) : (b.accept w body first).face = faceOf w := rfl
@[simp] theorem accept_nest (w : Half) (body : Position) (first : SeqState) : (b.accept w body first).nest = false := rfl
@[simp] theorem accept_ackTmo (w : Half) (body : Position) (first : SeqState) : (b.accept w body first).ackTmo = b.ackTmo := rfl
@[simp] theorem accept_measTmo (w : Half) (body : Position) (first : SeqState) : (b.accept w body first).measTmo = b.measTmo := rfl
@[simp] theorem accept_argTemp (w : Half) (body : Position) (first : SeqState) : (b.accept w body first).argTemp = b.argTemp := rfl
@[simp] theorem accept_argRaw (w : Half) (body : Position) (first : SeqState) : (b.accept w body first).argRaw = b.argRaw := rfl
@[simp] theorem accept_status (w : Half) (body : Position) (first : SeqState) : (b.accept w body first).status = b.status := rfl
@[simp] theorem accept_cksum (w : Half) (body : Position) (first : SeqState) : (b.accept w body first).cksum = b.cksum := rfl
@[simp] theorem accept_statw (w : Half) (body : Position) (first : SeqState) : (b.accept w body first).statw = b.statw := rfl
@[simp] theorem accept_raw (w : Half) (body : Position) (first : SeqState) : (b.accept w body first).raw = if takesArgRaw w then b.argRaw else b.raw := rfl
@[simp] theorem accept_temp (w : Half) (body : Position) (first : SeqState) : (b.accept w body first).temp = if takesArgTemp w then suppliedTemp b.argTemp else b.temp := rfl
@[simp] theorem accept_humid (w : Half) (body : Position) (first : SeqState) : (b.accept w body first).humid = b.humid := rfl

/-! ## Pin events (R121 to R123) -/

@[simp] theorem drive_clk (v : Bool) : b.drive (.clk v) = { b with clkOut := v, clkDir := .out } := rfl
@[simp] theorem drive_data (v : Bool) : b.drive (.data v) = { b with dataOut := v, dataDir := .out } := rfl
@[simp] theorem drive_release : b.drive .release = { b with dataDir := .inp } := rfl

/-- A pin event writes the four pin elements and nothing else (R21). -/
theorem drive_frame (e : PinEvent) :
    b.drive e = { b with clkOut := (b.drive e).clkOut, clkDir := (b.drive e).clkDir,
                         dataOut := (b.drive e).dataOut, dataDir := (b.drive e).dataDir } := by
  cases e <;> rfl


/-! ## The end of a wait (R224, R237) -/

@[simp] theorem granted_ack (kind : ErrKind) (site : BitVec 3) : b.granted (.ack kind site) = b := rfl
@[simp] theorem granted_ready (site : BitVec 3) :
    b.granted (.ready site) = { b with watchArmed := false, timerArmed := false } := rfl


/-! ## Assignments -/

@[simp] theorem apply_goto (st : SeqState) :
    b.apply (.goto st) = { b with state := st } := rfl
@[simp] theorem apply_nest (v : Bool) :
    b.apply (.nest v) = { b with nest := v } := rfl
@[simp] theorem apply_countAck :
    b.apply .countAck = { b with ackCnt := b.ackCnt + 1 } := rfl
@[simp] theorem apply_arm :
    b.apply .arm = { b with watchArmed := b.watchArmed || b.face, timerArmed := b.timerArmed || b.face } := rfl
@[simp] theorem apply_latchStatus :
    b.apply .latchStatus = { b with status := b.acc.extractLsb' 8 8, cksum := b.acc.extractLsb' 0 8 } := rfl
@[simp] theorem apply_refreshMode :
    b.apply .refreshMode = { b with stValid := true, resMode := b.status.getLsbD 0, resStale := false } := rfl
@[simp] theorem apply_stageWrite (new : Byte) :
    b.apply (.stageWrite new) = { b with statw := new, stValid := false, resStale := true } := rfl
@[simp] theorem apply_markStale :
    b.apply .markStale = { b with resStale := true } := rfl
@[simp] theorem apply_latchRaw :
    b.apply .latchRaw = { b with raw := b.acc } := rfl
@[simp] theorem apply_calTemp (src : ResSource) :
    b.apply (.calTemp src) = { b with temp := calT b.raw (src.bit b), tValid := true, tSrc := false } := rfl
@[simp] theorem apply_calHumid (src : ResSource) :
    b.apply (.calHumid src) = { b with humid := calRH b.raw b.temp (src.bit b), hValid := true } := rfl
@[simp] theorem apply_setReady :
    b.apply .setReady = { b with ready := true } := rfl
@[simp] theorem apply_complete :
    b.apply .complete = b.complete := rfl

end Sys2Proof.Machine
end

