-- ==== Sys2Proof/Laws/Ops.lean ====
section
/-! SUPPORT. What each shared operation can do, said once: the lemmas later proofs cite instead of unfolding the
operations, the fetch and the step. -/

namespace Sys2Proof.Machine

/-! ## Acceptance -/

/-- A command is either accepted as it stands or refused (R41, R101). -/
theorem issue_cases (i : Instr) (needsReady : Bool) (first : SeqState) (body : Position) (s : State) :
    (issue i needsReady first body s = .next { s with blk := s.blk.accept (encode i) body first } ∧
      s.blk.busy = false ∧ (needsReady = true → s.blk.ready = true)) ∨
    (issue i needsReady first body s = .next s.refuseWrite ∧
      (s.blk.busy = true ∨ needsReady = true ∧ s.blk.ready = false)) := by
  unfold issue
  cases s.blk.busy <;> cases needsReady <;> cases s.blk.ready <;> simp

/-! ## The assignments around an event -/

theorem lead_nil (b : Block) : b.lead [] = b.moveTo [] := rfl

theorem lead_event (b : Block) (e : SeqEvent) (rest : List Micro) :
    b.lead (.event e :: rest) = b.moveTo (.event e :: rest) := rfl

theorem lead_update (b : Block) (u : Update) (rest : List Micro) :
    b.lead (.update u :: rest) = (b.apply u).lead rest := rfl

theorem lead_result (b : Block) (u : Update) (rest : List Micro) :
    b.lead (.result u :: rest) = (b.apply u).lead rest := rfl

theorem lead_raise (b : Block) (kind : ErrKind) (site : BitVec 3) (rest : List Micro) :
    b.lead (.raise kind site :: rest) = b.fail kind site := rfl

/-- What the assignments, a failure and the move of the position all keep, `lead` keeps. -/
theorem lead_keeps {P : Block → Prop} (happly : ∀ b u, P b → P (b.apply u))
    (hfail : ∀ b kind site, P b → P (b.fail kind site)) (hmove : ∀ b todo, P b → P (b.moveTo todo)) :
    ∀ (todo : List Micro) (b : Block), P b → P (b.lead todo)
  | [], b, h => hmove b [] h
  | .event e :: rest, b, h => hmove b (.event e :: rest) h
  | .update u :: rest, b, h => lead_keeps happly hfail hmove rest (b.apply u) (happly b u h)
  | .result u :: rest, b, h => lead_keeps happly hfail hmove rest (b.apply u) (happly b u h)
  | .raise kind site :: _, b, h => hfail b kind site h

theorem trail_nil (b : Block) : b.trail [] = b.moveTo [] := rfl

theorem trail_event (b : Block) (e : SeqEvent) (rest : List Micro) :
    b.trail (.event e :: rest) = b.moveTo (.event e :: rest) := rfl

theorem trail_result (b : Block) (u : Update) (rest : List Micro) :
    b.trail (.result u :: rest) = (b.apply u).trail rest := rfl

theorem trail_raise (b : Block) (kind : ErrKind) (site : BitVec 3) (rest : List Micro) :
    b.trail (.raise kind site :: rest) = b.fail kind site := rfl

theorem trail_update (b : Block) (u : Update) (rest : List Micro) :
    b.trail (.update u :: rest) =
      if hasEvent rest then b.moveTo (.update u :: rest) else b.lead (.update u :: rest) := rfl

/-- What the assignments, a failure and the move of the position all keep, `trail` keeps. -/
theorem trail_keeps {P : Block → Prop} (happly : ∀ b u, P b → P (b.apply u))
    (hfail : ∀ b kind site, P b → P (b.fail kind site)) (hmove : ∀ b todo, P b → P (b.moveTo todo)) :
    ∀ (todo : List Micro) (b : Block), P b → P (b.trail todo)
  | [], b, h => hmove b [] h
  | .event e :: rest, b, h => hmove b (.event e :: rest) h
  | .update u :: rest, b, h => by
    rw [trail_update]
    split
    · exact hmove b _ h
    · exact lead_keeps happly hfail hmove _ b h
  | .result u :: rest, b, h => trail_keeps happly hfail hmove rest (b.apply u) (happly b u h)
  | .raise kind site :: _, b, h => hfail b kind site h

/-! ## Wire events -/

theorem performed_next (s : State) (b : Block) (ev : WireEvent) (todo : List Micro) :
    s.performed b ev todo = .next { blk := b.trail todo, env := { s.env with event := some ev } } := rfl

theorem sampled_inp (s : State) (use : Bool → Result) (h : s.blk.dataDir = .inp) :
    s.sampled use = use (!s.env.sensorPull) := by
  unfold State.sampled; rw [h]

theorem sampled_out (s : State) (use : Bool → Result) (h : s.blk.dataDir = .out) :
    s.sampled use = .fault .sampleWhileDriven := by
  unfold State.sampled; rw [h]

theorem performPins_cons (s : State) (rest : List Micro) (e : PinEvent) (es : List PinEvent) :
    s.performPins rest (e :: es) = s.performed (s.blk.drive e) (.pin e) (emits es ++ rest) := rfl

/-- What an event does to the block, the value it carries on the wire, and the position after it (R121 to R125, R160,
R170, R198, R224): everything `perform` can do when it answers a next state. -/
inductive Performs (s : State) (rest : List Micro) : SeqEvent → Block → WireEvent → List Micro → Prop where
  | pin (e : PinEvent) : Performs s rest (.pin e) (s.blk.drive e) (.pin e) rest
  | sampleBit (h : s.blk.dataDir = .inp) :
      Performs s rest .sampleBit { s.blk with acc := shiftIn s.blk.acc (!s.env.sensorPull) }
        (.sample (!s.env.sensorPull)) rest
  | latchTime : Performs s rest .latchTime { s.blk with t0 := s.env.now } (.time s.env.now) rest
  | pollSilent (w : Wait) (h : s.blk.dataDir = .inp) (hs : s.env.sensorPull = false) :
      Performs s rest (.poll w) s.blk (.sample true) (.event (.check w) :: rest)
  | pollGranted (w : Wait) (h : s.blk.dataDir = .inp) (hs : s.env.sensorPull = true) :
      Performs s rest (.poll w) (s.blk.granted w) (.sample false) rest
  | checkPassed (w : Wait) (h : w.bound s.blk ≤ elapsed s.env.now s.blk.t0) :
      Performs s rest (.check w) s.blk (.time s.env.now) (timedOut w)
  | checkRemains (w : Wait) (h : elapsed s.env.now s.blk.t0 < w.bound s.blk) :
      Performs s rest (.check w) s.blk (.time s.env.now) (.event (.poll w) :: rest)
  | settled (h : Params.settleMs ≤ elapsed s.env.now s.blk.t0) :
      Performs s rest .settle s.blk (.time s.env.now) rest
  | settling (h : elapsed s.env.now s.blk.t0 < Params.settleMs) :
      Performs s rest .settle s.blk (.time s.env.now) (.event .settle :: rest)
  | command (byte : Byte) (e : PinEvent) (es : List PinEvent) (h : sendFrame byte = e :: es) :
      Performs s rest (.command byte) (s.blk.drive e) (.pin e) (emits es ++ rest)

/-- An event is performed, or it is a sample with DATA driven and the machine stops (R124). -/
theorem perform_cases (s : State) (rest : List Micro) (e : SeqEvent) :
    (∃ b ev todo, Performs s rest e b ev todo ∧
      s.perform rest e = .next { blk := b.trail todo, env := { s.env with event := some ev } }) ∨
    (s.perform rest e = .fault .sampleWhileDriven ∧ s.blk.dataDir = .out ∧ (e = .sampleBit ∨ ∃ w, e = .poll w)) := by
  cases e with
  | pin e => exact .inl ⟨_, _, _, .pin e, rfl⟩
  | sampleBit =>
    cases h : s.blk.dataDir
    · exact .inl ⟨_, _, _, .sampleBit h, by simp [State.perform, sampled_inp _ _ h, performed_next]⟩
    · exact .inr ⟨by simp [State.perform, sampled_out _ _ h], rfl, .inl rfl⟩
  | latchTime => exact .inl ⟨_, _, _, .latchTime, rfl⟩
  | poll w =>
    cases h : s.blk.dataDir
    · cases hs : s.env.sensorPull
      · exact .inl ⟨_, _, _, .pollSilent w h hs, by simp [State.perform, sampled_inp _ _ h, hs, performed_next]⟩
      · exact .inl ⟨_, _, _, .pollGranted w h hs, by simp [State.perform, sampled_inp _ _ h, hs, performed_next]⟩
    · exact .inr ⟨by simp [State.perform, sampled_out _ _ h], rfl, .inr ⟨w, rfl⟩⟩
  | check w =>
    by_cases h : w.bound s.blk ≤ elapsed s.env.now s.blk.t0
    · exact .inl ⟨_, _, _, .checkPassed w h, by simp [State.perform, h, performed_next]⟩
    · exact .inl ⟨_, _, _, .checkRemains w (by omega), by simp [State.perform, h, performed_next]⟩
  | settle =>
    by_cases h : Params.settleMs ≤ elapsed s.env.now s.blk.t0
    · exact .inl ⟨_, _, _, .settled h, by simp [State.perform, h, performed_next]⟩
    · exact .inl ⟨_, _, _, .settling (by omega), by simp [State.perform, h, performed_next]⟩
  | command byte => exact .inl ⟨_, _, _, .command byte _ _ rfl, rfl⟩

/-! ## One step of the sequencer -/

/-- After the leading assignments the position is empty or stands at an event. -/
theorem lead_todo : ∀ (todo : List Micro) (b : Block),
    (b.lead todo).step.todo = [] ∨ ∃ e rest, (b.lead todo).step.todo = .event e :: rest
  | [], _ => .inl rfl
  | .event e :: rest, _ => .inr ⟨e, rest, rfl⟩
  | .update u :: rest, b => lead_todo rest (b.apply u)
  | .result u :: rest, b => lead_todo rest (b.apply u)
  | .raise _ _ :: _, _ => .inl rfl

/-- A step of the sequencer performs the next event, or, where the body has none left, its last assignments (R233). -/
theorem advance_cases (s : State) :
    (∃ e rest, (s.blk.lead s.blk.step.todo).step.todo = .event e :: rest ∧
      advance s = { s with blk := s.blk.lead s.blk.step.todo }.perform rest e) ∨
    ((s.blk.lead s.blk.step.todo).step.todo = [] ∧
      advance s = .next { s with blk := s.blk.lead s.blk.step.todo }) := by
  rcases lead_todo s.blk.step.todo s.blk with h | ⟨e, rest, h⟩
  · exact .inr ⟨h, by unfold advance; rw [h]⟩
  · exact .inl ⟨e, rest, h, by unfold advance; rw [h]⟩

/-- A transaction whose first assignments are `goto st` begins with the first event of the start sequence: DATA driven
high (R141, R233). -/
theorem beginTransaction_start (st : SeqState) (rest : List Micro) (s : State) :
    beginTransaction (.update (.goto st) :: .event (.pin (.data true)) :: .event (.pin (.clk true)) :: rest) s =
      .next
        { blk := { s.blk with
            dataOut := true, dataDir := .out, state := st
            step := { s.blk.step with todo := .event (.pin (.clk true)) :: (rest ++ s.blk.step.todo) } }
          env := { s.env with event := some (.pin (.data true)) } } := rfl

/-! ## The fetch -/

/-- The sequencer's move: none while idle; a wire command where the position stands at one; else one step. -/
theorem fetchSeq_cases (s : State) :
    (s.blk.busy = false ∧ fetchSeq s = .other (.next s)) ∨
    (s.blk.busy = true ∧ ∃ byte rest i, (s.blk.lead s.blk.step.todo).step.todo = .event (.command byte) :: rest ∧
      decodeWire byte = .instr i ∧
      fetchSeq s = .run i { s with blk := (s.blk.lead s.blk.step.todo).moveTo rest }) ∨
    (s.blk.busy = true ∧ (∀ byte rest i, (s.blk.lead s.blk.step.todo).step.todo = .event (.command byte) :: rest →
      decodeWire byte ≠ .instr i) ∧ fetchSeq s = .other (advance s)) := by
  unfold fetchSeq
  cases hb : s.blk.busy
  · exact .inl ⟨rfl, rfl⟩
  · simp only [if_true, true_and, Bool.true_eq_false, false_and, false_or]
    split
    · rename_i byte rest h
      cases hd : decodeWire byte with
      | instr i => exact .inl ⟨byte, rest, i, h, hd, rfl⟩
      | rejected why =>
        refine .inr ⟨fun byte' rest' i h' => ?_, rfl⟩
        rw [h] at h'
        cases h'
        simp [hd]
    · rename_i h
      exact .inr ⟨fun byte rest i h' => absurd h' (h byte rest), rfl⟩

/-- A byte the decoder knows is one of the five of R99. -/
theorem decodeWire_instr {byte : Byte} {i : Instr} (h : decodeWire byte = .instr i) :
    (byte = commandByte Params.cmdMeasureTemp ∧ i = .wMeasureTemp) ∨
    (byte = commandByte Params.cmdMeasureRh ∧ i = .wMeasureRh) ∨
    (byte = commandByte Params.cmdReadStatus ∧ i = .wReadStatus) ∨
    (byte = commandByte Params.cmdWriteStatus ∧ i = .wWriteStatus) ∨
    (byte = commandByte Params.cmdSoftReset ∧ i = .wSoftReset) := by
  unfold decodeWire at h
  split at h
  · cases h
  iterate 5
    split at h
    · rename_i hb
      cases h
      subst hb
      simp
  cases h

/-- A word the decoder knows is a host operation. -/
theorem decodeHost_format {w : Half} {i : Instr} (h : decodeHost w = .instr i) : i.format = .host := by
  unfold decodeHost ifUnusedZero at h
  split at h <;> first
    | (split at h <;> cases h; rfl)
    | cases h

/-! ## The step -/

theorem fetch_nil (s : State) (h : s.env.script = []) : fetch s = fetchSeq s.pop.unscripted := by
  unfold fetch; simp only [h]

theorem fetch_seq (s : State) (rest : List Act) (h : s.env.script = .seq :: rest) : fetch s = fetchSeq s.pop := by
  unfold fetch; simp only [h]

theorem step_read (s : State) (r : Nat) (rest : List Act) (h : s.env.script = .host (.read r) :: rest) :
    step s = .next (hostRead r s.pop) := by
  unfold step fetch; rw [h]; rfl

theorem step_write (s : State) (r : Nat) (v : Word) (rest : List Act) (hr : r ≠ 0)
    (h : s.env.script = .host (.write r v) :: rest) : step s = .next (hostWrite r v s.pop) := by
  unfold step fetch; rw [h]; simp [fetchHost, hr]

theorem step_cmd (s : State) (v : Word) (rest : List Act) (h : s.env.script = .host (.write 0 v) :: rest) :
    step s = match decodeHost (v.setWidth 16) with
      | .instr i => exec i s.pop
      | .rejected _ => .next s.pop.refuseWrite := by
  unfold step fetch; rw [h]
  simp only [fetchHost, if_true, fetchCmd]
  cases decodeHost (v.setWidth 16) <;> rfl

theorem step_sensor (s : State) (pull : Bool) (rest : List Act) (h : s.env.script = .sensor pull :: rest) :
    step s = .next { s.pop with env := { s.pop.env with sensorPull := pull } } := by
  unfold step fetch; rw [h]

theorem step_tick (s : State) (n : Time) (rest : List Act) (h : s.env.script = .tick n :: rest) :
    step s = .next { s.pop with env := { s.pop.env with now := s.env.now + n } } := by
  unfold step fetch; rw [h]

theorem step_reset (s : State) (rest : List Act) (h : s.env.script = .reset :: rest) :
    step s = .next { s.pop with blk := Block.reset } := by
  unfold step fetch; rw [h]

end Sys2Proof.Machine
end

