-- ==== Sys2Proof/Laws/PerInstr.lean ====
section
/-! SUPPORT. What holds of every instruction as syntax: its encoding matches its row of the opcode table (30_encoding.md
rules R99 and R100) and stays within its format's width. -/

namespace Sys2Proof.Laws

/-- The instruction's word matches its row, and the bits above its format's width are 0. -/
def TableRow.Statement (i : Instr) : Prop :=
  encode i &&& rowMask i = rowMatch i ∧ encode i >>> i.format.width = 0

theorem TableRow.init : TableRow.Statement .init := by unfold TableRow.Statement; decide

theorem TableRow.softReset : TableRow.Statement .softReset := by unfold TableRow.Statement; decide

theorem TableRow.getStatus : TableRow.Statement .getStatus := by unfold TableRow.Statement; decide

/-- The fields `VAL` and `BIT` stay inside the row's free bits. -/
theorem setStatusBit_fields (bit : BitVec 3) (val : Bool) :
    hostFields 0x4 false false val bit false &&& 0xFC3F = 0x4000 ∧
      hostFields 0x4 false false val bit false >>> 16 = 0 := by
  revert bit val; decide

theorem TableRow.setStatusBit (bit : Nat) (val : Bool) : TableRow.Statement (.setStatusBit bit val) :=
  setStatusBit_fields (BitVec.ofNat 3 bit) val

theorem TableRow.setLowRes : TableRow.Statement .setLowRes := by unfold TableRow.Statement; decide

theorem TableRow.setHighRes : TableRow.Statement .setHighRes := by unfold TableRow.Statement; decide

theorem TableRow.setHeater (val : Bool) : TableRow.Statement (.setHeater val) := by
  unfold TableRow.Statement; revert val; decide

theorem TableRow.setOtpReload (val : Bool) : TableRow.Statement (.setOtpReload val) := by
  unfold TableRow.Statement; revert val; decide

theorem TableRow.readTemp (face : Bool) : TableRow.Statement (.readTemp face) := by
  unfold TableRow.Statement; revert face; decide

theorem TableRow.readHumid (face tv : Bool) : TableRow.Statement (.readHumid face tv) := by
  unfold TableRow.Statement; revert face tv; decide

theorem TableRow.calTemp (res : Bool) : TableRow.Statement (.calTemp res) := by
  unfold TableRow.Statement; revert res; decide

theorem TableRow.calHumid (res : Bool) : TableRow.Statement (.calHumid res) := by
  unfold TableRow.Statement; revert res; decide

theorem TableRow.wMeasureTemp : TableRow.Statement .wMeasureTemp := by unfold TableRow.Statement; decide

theorem TableRow.wMeasureRh : TableRow.Statement .wMeasureRh := by unfold TableRow.Statement; decide

theorem TableRow.wReadStatus : TableRow.Statement .wReadStatus := by unfold TableRow.Statement; decide

theorem TableRow.wWriteStatus : TableRow.Statement .wWriteStatus := by unfold TableRow.Statement; decide

theorem TableRow.wSoftReset : TableRow.Statement .wSoftReset := by unfold TableRow.Statement; decide

end Sys2Proof.Laws
end

