-- ==== Sys2Proof/Tests/Slice0.lean ====
section
/-! SUPPORT. Tests: the well-formedness check, the decoding of words written out from the spec's encodings, one step of
each instruction with a result the spec gives (the file and vector are named), and for every statement of
`Sys2Proof.Certificates.Slice0.Obligations` that has hypotheses a state and operands that meet them. -/

namespace Sys2Proof.Tests

open Sys2Proof.Machine

/-! ## Well-formedness (R107: `BIT` is an index 0 to 7) -/

theorem test_bit_index_7_is_well_formed : (Instr.setStatusBit 7 true).wellFormed = true := by decide

theorem test_bit_index_8_is_refused : (Instr.setStatusBit 8 true).wellFormed = false := by decide

/-! ## Decoding: words of vectors V30, V41 and rule R99, `OPC FACE TV VAL BIT RES 00000` bit by bit -/

theorem test_decode_init : decodeTableWord 16 0b0001_0_0_0_000_0_00000 = some .init := by decide

theorem test_decode_soft_reset : decodeTableWord 16 0b0010_0_0_0_000_0_00000 = some .softReset := by decide

theorem test_decode_get_status : decodeTableWord 16 0b0011_0_0_0_000_0_00000 = some .getStatus := by decide

theorem test_decode_set_status_bit : decodeTableWord 16 0b0100_0_0_1_111_0_00000 = some (.setStatusBit 7 true) ∧
    decodeTableWord 16 0b0100_0_0_0_010_0_00000 = some (.setStatusBit 2 false) := by decide

theorem test_decode_set_low_res : decodeTableWord 16 0b0101_0_0_0_000_0_00000 = some .setLowRes := by decide

theorem test_decode_set_high_res : decodeTableWord 16 0b0110_0_0_0_000_0_00000 = some .setHighRes := by decide

theorem test_decode_set_heater : decodeTableWord 16 0b0111_0_0_1_000_0_00000 = some (.setHeater true) := by decide

theorem test_decode_set_otp_reload : decodeTableWord 16 0b1000_0_0_1_000_0_00000 = some (.setOtpReload true) := by
  decide

theorem test_decode_read_temp : decodeTableWord 16 0b1001_1_0_0_000_0_00000 = some (.readTemp true) := by decide

theorem test_decode_read_humid : decodeTableWord 16 0b1010_0_1_0_000_0_00000 = some (.readHumid false true) ∧
    decodeTableWord 16 0b1010_1_0_0_000_0_00000 = some (.readHumid true false) := by decide

theorem test_decode_cal_temp : decodeTableWord 16 0b1011_0_0_0_000_1_00000 = some (.calTemp true) := by decide

theorem test_decode_cal_humid : decodeTableWord 16 0b1100_0_0_0_000_1_00000 = some (.calHumid true) := by decide

theorem test_decode_wire_commands :
    decodeTableWord 8 0b000_00011 = some .wMeasureTemp ∧ decodeTableWord 8 0b000_00101 = some .wMeasureRh ∧
    decodeTableWord 8 0b000_00111 = some .wReadStatus ∧ decodeTableWord 8 0b000_00110 = some .wWriteStatus ∧
    decodeTableWord 8 0b000_11110 = some .wSoftReset := by decide

/-- R99: the wire rows' `match` column, and the bytes of the encoder. -/
theorem test_wire_rows :
    [Instr.wMeasureTemp, .wMeasureRh, .wReadStatus, .wWriteStatus, .wSoftReset].map rowMatch =
      [0x03, 0x05, 0x07, 0x06, 0x1E] ∧
    [Instr.wMeasureTemp, .wMeasureRh, .wReadStatus, .wWriteStatus, .wSoftReset].map encode =
      [0x03, 0x05, 0x07, 0x06, 0x1E] := by decide

/-- The 17 illegal words of V30. -/
theorem test_illegal_words_are_rejected :
    [0x0000, 0x0001, 0xD000, 0xE000, 0xF000, 0xFFFF, 0x1001, 0x1800, 0x3200, 0x5020, 0x7040, 0x9400, 0x9020, 0xA200,
      0xB800, 0xC010, 0x4800].all (fun w => decodeTableWord 16 w == none) = true := by decide

theorem test_rejections_have_names :
    decodeHost 0xD000 = .rejected (.unassignedOpcode 0xD) ∧ decodeHost 0x1001 = .rejected (.unusedFieldSet 0x1) ∧
    decodeWire 0x23 = .rejected (.foreignAddress 1) ∧ decodeWire 0x1F = .rejected (.unknownWireCommand 0x1F) ∧
    decodeBits 7 3 = .rejected (.noSuchFormat 7) := by decide

/-! ## States for the tests -/

/-- The block after reset, constructed or not, idle. -/
def idleBlock (ready : Bool) : Block := { Block.reset with ready := ready }

/-- The idle environment with these moves to come. -/
def withMoves (b : Block) (script : List Act) : State := { blk := b, env := { Env.reset with script := script } }

/-- The idle block with these moves to come. -/
def idle (ready : Bool) (script : List Act) : State :=
  withMoves (idleBlock ready) script

/-- A running operation at `todo`, CLOCK driven low, DATA in direction `dir`, the sensor pulling or not, with these moves
to come. -/
def running (todo : List Micro) (dir : Dir) (pull : Bool) (script : List Act) : State :=
  { blk := { idleBlock true with
      busy := true, state := .awaitingAck, ackTmo := 5, measTmo := 400, clkDir := .out, dataDir := dir
      step := { Position.empty with todo := todo } }
    env := { Env.reset with script := script, sensorPull := pull } }

/-- The block a step leads to. -/
def after (r : Result) : Option Block :=
  match r with
  | .next t => some t.blk
  | .fault _ => none
  | .refused _ => none

/-- A field of the block a step leads to. -/
def field {α : Type} (r : Result) (f : Block → α) : Option α := (after r).map f

/-! ## One step of each instruction -/

/-- R199: acceptance of `INIT` clears `READY`. -/
theorem test_init_clears_ready :
    field (step (idle true [.host (.write 0 0x1000)])) (fun b => (b.busy, b.ready, b.cmdl)) =
      some (true, false, 0x1000) := by decide

/-- V10.10: `GET_STATUS` with `READY = 0` sets `REJECT` and nothing else. -/
theorem test_get_status_refused_unready :
    field (step (idle false [.host (.write 0 0x3000)])) (fun b => (b.stat, b.cmdl)) = some (0x8, 0) := by decide

/-- R202: `SOFT_RESET` needs a constructed session. -/
theorem test_soft_reset_accepted :
    field (step (idle true [.host (.write 0 0x2000)])) (fun b => (b.busy, b.state)) = some (true, .commandSent) := by
  decide

/-- R201: the operands of `SET_STATUS_BIT` reach the position. -/
theorem test_set_status_bit_operands :
    field (step (idle true [.host (.write 0 0x43C0)])) (fun b => (b.step.bit, b.step.val)) = some (7, true) := by decide

/-- V44: the `setStatusBit` calls of the four wrappers. -/
theorem test_wrapper_operands :
    field (step (idle true [.host (.write 0 0x5000)])) (fun b => (b.step.bit, b.step.val)) = some (0, true) ∧
    field (step (idle true [.host (.write 0 0x6000)])) (fun b => (b.step.bit, b.step.val)) = some (0, false) ∧
    field (step (idle true [.host (.write 0 0x7200)])) (fun b => (b.step.bit, b.step.val)) = some (2, true) ∧
    field (step (idle true [.host (.write 0 0x8200)])) (fun b => (b.step.bit, b.step.val)) = some (1, false) := by
  decide

/-- V30: `0x12349000` is `READ_TEMP`. -/
theorem test_command_uses_low_half :
    field (step (idle true [.host (.write 0 0x12349000)])) (fun b => (b.busy, b.cmdl)) = some (true, 0x9000) := by
  decide

/-- R226: a supplied temperature is copied at acceptance, sign-extended (V10.4: 0xF63C is -2500). -/
theorem test_read_humid_copies_argument :
    field (exec (.readHumid false true) { idle true [] with blk := { idleBlock true with argTemp := 0xF63C } })
      (fun b => (b.temp, b.tValid, b.tSrc)) = some (0xFFFFF63C, true, true) := by decide

/-- R257's example: `ARG_RAW = 14000`, `CAL_TEMP RES=1` gives 52030, in one step after acceptance. -/
theorem test_cal_temp_low_res :
    field (step (withMoves { idleBlock false with
        busy := true, argRaw := 14000, raw := 14000, state := .decoding
        step := { Position.empty with todo := [.update (.calTemp (.given true)), .update .complete] } } [.seq]))
      (fun b => (b.temp, b.tValid, b.state)) = some (52030, true, .done) := by decide

/-- R258's example: `ARG_RAW = 5000`, `ARG_TEMP = 2500`, `CAL_HUMID RES=0`. -/
theorem test_cal_humid :
    field (step (withMoves { idleBlock false with
        busy := true, raw := 5000, temp := 2500, state := .decoding
        step := { Position.empty with todo := [.update (.calHumid (.given false)), .update .complete] } } [.seq]))
      (fun b => b.humid) = some 0x1499BBB8C40 := by decide

/-- R141: the first event of a wire command is the `D1` of the start sequence. -/
theorem test_wire_command_begins_with_start :
    ((step (running [.event (.command 0x07), .update .complete] .inp true [.seq]) : Result) matches
      .next { env := { event := some (.pin (.data true)), .. }, .. }) = true := by decide

/-- V44: `newStatus`. -/
theorem test_new_status :
    newStatus 0x45 2 false = 0x01 ∧ newStatus 0x45 1 true = 0x47 ∧ newStatus 0x45 6 false = 0x05 ∧
    newStatus 0xFF 7 false = 0x07 ∧ newStatus 0x00 7 true = 0x80 ∧ newStatus 0xF8 1 false = 0x00 := by decide

/-- V46: temperatures at the ends of the range. -/
theorem test_temperature_vectors :
    calT 0 false = 0xFFFFF07E ∧ calT 14000 false = 0x272E ∧ calT 65535 true = 0x3F07A := by decide

/-- V46: humidities, the last below 0. -/
theorem test_humidity_vectors :
    calRH 2000 3000 false = 0x99407E1100 ∧ calRH 100 2430 true = 0x7A37BAD040 ∧
    calRH 65535 0xFFFF8000 true = 0xFFC1FE4826DD02EC := by decide

/-- V41: the command byte of `sendCommand(00111)` after the start sequence. -/
theorem test_send_command_bits :
    clockedBits false ((sendCommand 0b00111).drop 8) = [false, false, false, false, false, true, true, true] := by
  decide

/-- V10: `PINS` after reset, the sensor silent or pulling. -/
theorem test_pins_after_reset :
    Block.reset.pinsReg false false = 0x30 ∧ Block.reset.pinsReg true false = 0x20 := by decide

/-- V60: `GET_STATUS` without an ACK: the time read at the bound, then DATA driven low. -/
theorem test_missed_ack_parks_low :
    field (step (running [.event (.pin (.data false)), .raise .handshakeTimeout 1] .inp false [.seq]))
      (fun b => (b.stat, b.pinsReg false false)) = some (0x05C6, 0x0A) := by decide

/-- V40: a sample is legal only with DATA an input. -/
theorem test_sample_while_driven_stops :
    (step (running [.event .sampleBit] .out false [.seq]) : Result) matches .fault .sampleWhileDriven := by decide

/-! ## The words the host places -/

theorem test_with_fetch_word_host :
    field (step (State.reset.withFetchWord 16 0x1000)) (fun b => b.cmdl) = some 0x1000 := by decide

theorem test_with_fetch_word_wire :
    field (step (State.reset.withFetchWord 8 0x03)) (fun b => (b.state, b.dataOut)) = some (.commandSent, true) := by
  decide

/-! ## What the statements assume can be met -/

theorem witness_DecodeInvertsEncode :
    (Instr.setStatusBit 0 false).wellFormed = true ∧ (Instr.setStatusBit 7 true).wellFormed = true := by decide

theorem witness_EncodeInvertsDecode :
    0x43C0 < 2 ^ 16 ∧ decodeTableWord 16 0x43C0 = some (.setStatusBit 7 true) ∧
    0x1E < 2 ^ 8 ∧ decodeTableWord 8 0x1E = some .wSoftReset := by decide

theorem witness_LegalWordsMatchOneRow :
    decodeHost 0xC020 = .instr (.calHumid true) ∧ (0xC000, 0xFFDF) ∈ hostRows ∧
    (0xC020#16 &&& 0xFFDF) = 0xC000 := by decide

/-- The three grounds of a refusal, the last at the opcodes next to the two that need no session. -/
theorem witness_RefusedCommandOnlySetsReject :
    (idle true [.host (.write 0 0xD000)]).env.script = .host (.write 0 0xD000) :: [] ∧
    (∀ r ∈ hostRows, (0xD000#32).extractLsb' 0 16 &&& r.2 ≠ r.1) ∧
    (running [] .inp false []).blk.busy = true ∧
    (idle false []).blk.ready = false ∧ (0xA000#32).extractLsb' 12 4 ≠ 0x1 ∧ (0xA000#32).extractLsb' 12 4 ≠ 0xB ∧
    (0xA000#32).extractLsb' 12 4 ≠ 0xC ∧ (0x2000#32).extractLsb' 12 4 ≠ 0x1 :=
  ⟨rfl, by intro r hr; fin_cases hr <;> decide, rfl, rfl, by decide, by decide, by decide, by decide⟩

/-- Accepted with a session, accepted without one (the three opcodes), and refused. -/
theorem witness_CommandAcceptedExactlyWhen :
    (∃ r ∈ hostRows, (0x3000#32).extractLsb' 0 16 &&& r.2 = r.1) ∧ (idle true []).blk.busy = false ∧
    (idle true []).blk.ready = true ∧
    (∃ r ∈ hostRows, (0xC000#32).extractLsb' 0 16 &&& r.2 = r.1) ∧ (0x1000#32).extractLsb' 12 4 = 0x1 ∧
    (0xB000#32).extractLsb' 12 4 = 0xB ∧ (0xC000#32).extractLsb' 12 4 = 0xC ∧
    ¬(∃ r ∈ hostRows, (0xF000#32).extractLsb' 0 16 &&& r.2 = r.1) ∧
    (idle true [.host (.write 0 0x3000)]).env.script = .host (.write 0 0x3000) :: [] ∧
    (idle true [.host (.read 0)]).env.script = .host (.read 0) :: [] :=
  ⟨by decide, rfl, rfl, by decide, rfl, rfl, rfl, by decide, rfl, rfl⟩

theorem witness_StepRunsTheDecodedInstruction :
    decodeHost ((0x12349000#32).extractLsb' 0 16) = .instr (.readTemp false) ∧
    decodeWire 0x03 = .instr .wMeasureTemp ∧
    ∃ (s u : State) (todo : List Micro), s.env.script = .seq :: [] ∧ s.blk.busy = true ∧
      (s.blk.lead s.blk.step.todo).step.todo = .event (.command 0x03) :: todo ∧
      u.env.script = [] ∧ u.blk.busy = true ∧
      (u.blk.lead u.blk.step.todo).step.todo = .event (.command 0x03) :: todo :=
  ⟨by decide, by decide, running [.update (.nest true), .event (.command 0x03)] .inp false [.seq],
    running [.update (.nest true), .event (.command 0x03)] .inp false [], [], rfl, rfl, rfl, rfl, rfl, rfl⟩

theorem witness_InitIsAccepted : (idle false []).blk.busy = false := by decide

theorem witness_StatusOperationsAreAccepted :
    (idle true []).blk.busy = false ∧ (idle true []).blk.ready = true ∧ 0 < 8 ∧ 7 < 8 := by decide

theorem witness_ReadOperationsAreAccepted :
    (idle true []).blk.busy = false ∧ (idle true []).blk.ready = true := by decide

theorem witness_CalibrationsAreAccepted : (idle false []).blk.busy = false := by decide

theorem witness_HostReadReturnsTheRegister (r : Nat) :
    ∃ (s : State) (rest : List Act), s.env.script = .host (.read r) :: rest := ⟨idle true [.host (.read r)], [], rfl⟩

theorem witness_StatRegisterLayout :
    (idle true [.host (.read 1)]).env.script = .host (.read 1) :: [] ∧
    (idle true [.host (.write 1 0xFFFFFFFF)]).env.script = .host (.write 1 0xFFFFFFFF) :: [] := by decide

/-- Both directions of each line; DATA driven low against a pulling sensor, which is no contention. -/
theorem witness_PinsRegisterShowsTheLines :
    (idle true [.host (.read 12)]).env.script = .host (.read 12) :: [] ∧ (idle true []).blk.dataDir = .inp ∧
    (idle true []).blk.clkDir = .inp ∧ (running [] .out true []).blk.dataDir = .out ∧
    ¬((running [] .out true []).blk.dataOut = true ∧ (running [] .out true []).env.sensorPull = true) ∧
    (running [] .out true []).blk.clkDir = .out := by decide

theorem witness_ControlRegisterActions :
    (idle true [.host (.write 2 7)]).env.script = .host (.write 2 7) :: [] ∧
    (idle true [.host (.read 2)]).env.script = .host (.read 2) :: [] := by decide

/-- Each register, in an idle and in a running block. -/
theorem witness_TimeoutAndOperandWrites (r : Nat) (h : r = 3 ∨ r = 4 ∨ r = 5 ∨ r = 6) :
    (r = 3 ∨ r = 4 ∨ r = 5 ∨ r = 6) ∧
    (running [] .inp false [.host (.write r 9)]).env.script = .host (.write r 9) :: [] ∧
    (running [] .inp false [.host (.write r 9)]).blk.busy = true ∧
    (idle true [.host (.write r 9)]).env.script = .host (.write r 9) :: [] ∧
    (idle true [.host (.write r 9)]).blk.busy = false := ⟨h, rfl, rfl, rfl, rfl⟩

theorem witness_ReadOnlyAndAbsentRegisters :
    (idle true [.host (.write 7 1)]).env.script = .host (.write 7 1) :: [] ∧ 7 ≤ 7 ∧
    (idle true [.host (.read 13)]).env.script = .host (.read 13) :: [] ∧ 13 ≤ 13 := by decide

theorem witness_HostCannotAlterRunningOperation (a : HostAccess) :
    (running [] .inp false [.host a]).env.script = .host a :: [] ∧ (running [] .inp false [.host a]).blk.busy = true :=
  ⟨rfl, rfl⟩

theorem witness_ResetSetsEveryElement :
    (running [] .out true [.reset]).env.script = .reset :: [] := by decide

/-- Each of the three events, the last of a body and followed by another. -/
theorem witness_PinEventsWriteTheLines (e : PinEvent) (todo : List Micro) :
    (running (.event (.pin e) :: todo) .out true [.seq]).env.script = .seq :: [] ∧
    (running (.event (.pin e) :: todo) .out true [.seq]).blk.busy = true ∧
    (running (.event (.pin e) :: todo) .out true [.seq]).blk.step.todo = .event (.pin e) :: todo := ⟨rfl, rfl, rfl⟩

theorem witness_InputEventsReadTheEnvironment (pull : Bool) (todo : List Micro) :
    (running (.event .sampleBit :: todo) .inp pull [.seq]).env.script = .seq :: [] ∧
    (running (.event .sampleBit :: todo) .inp pull [.seq]).blk.busy = true ∧
    (running (.event .sampleBit :: todo) .inp pull [.seq]).blk.step.todo = .event .sampleBit :: todo ∧
    (running (.event .sampleBit :: todo) .inp pull [.seq]).blk.dataDir = .inp ∧
    (running (.event .latchTime :: todo) .inp pull [.seq]).blk.step.todo = .event .latchTime :: todo :=
  ⟨rfl, rfl, rfl, rfl, rfl⟩

theorem witness_CommandTraceDecodesToItsCode (c : BitVec 5) :
    (running [.event (.command (commandByte c))] .inp false (clocks 32)).env.script = clocks 32 ++ [] ∧
    (running [.event (.command (commandByte c))] .inp false (clocks 32)).blk.busy = true ∧
    (running [.event (.command (commandByte c))] .inp false (clocks 32)).blk.step.todo =
      .event (.command (commandByte c)) :: [] := ⟨rfl, rfl, rfl⟩

theorem witness_ReadByteReceivesMsbFirst (v : Byte) (e : SeqEvent) (todo : List Micro) (rest : List Act) :
    ∃ s : State, s.env.script = answerByte v ++ rest ∧ s.blk.busy = true ∧
      s.blk.step.todo = readByte ++ .event e :: todo :=
  ⟨running (readByte ++ .event e :: todo) .out false (answerByte v ++ rest), rfl, rfl, rfl⟩

/-- Both waits at one tick before their bounds (5 and 400), and the settle delay at 10 of 11 ticks. -/
theorem witness_WaitsContinueWhileTimeRemains :
    (∃ (s : State) (rest : List Act), s.env.script = silentRounds [0, 4] ++ rest ∧ s.blk.busy = true ∧
      s.blk.dataDir = .inp ∧ s.blk.step.todo = .event (.poll (.ack .handshakeTimeout 1)) :: [] ∧
      ∀ k < [0#32, 4#32].length, elapsed (s.env.now + ([0#32, 4#32].take (k + 1)).sum) s.blk.t0 <
        (Wait.ack .handshakeTimeout 1).bound s.blk) ∧
    (∀ k < [399#32].length, elapsed (0 + ([399#32].take (k + 1)).sum) 0 <
      (Wait.ready 6).bound (running [] .inp false []).blk) ∧
    (∀ k < [10#32].length, elapsed (0 + ([10#32].take (k + 1)).sum) 0 < 11) ∧
    ∃ (s : State) (rest : List Act), s.env.script = ([10#32].flatMap fun d => [Act.tick d, .seq]) ++ rest ∧
      s.blk.busy = true ∧ s.blk.step.todo = .event .settle :: [] :=
  ⟨⟨running [.event (.poll (.ack .handshakeTimeout 1))] .inp false (silentRounds [0, 4] ++ []), [], rfl, rfl, rfl, rfl,
      by decide⟩, by decide, by decide,
    ⟨running [.event .settle] .inp false (([10#32].flatMap fun d => [Act.tick d, .seq]) ++ []), [], rfl, rfl, rfl⟩⟩

/-- Each wait exactly at its bound. -/
theorem witness_TimeoutsFailTheOperation :
    (running [.event (.check (.ack .handshakeTimeout 4))] .inp false [.seq, .seq]).env.script = .seq :: .seq :: [] ∧
    (running [.event (.check (.ack .handshakeTimeout 4))] .inp false [.seq, .seq]).blk.step.todo =
      .event (.check (.ack .handshakeTimeout 4)) :: [] ∧
    (running [] .inp false []).blk.busy = true ∧
    (running [] .inp false []).blk.ackTmo.toNat ≤ elapsed 5 (running [] .inp false []).blk.t0 ∧
    (running [.event (.check (.ready 7))] .inp false [.seq]).blk.step.todo = .event (.check (.ready 7)) :: [] ∧
    (running [] .inp false []).blk.measTmo.toNat ≤ elapsed 400 (running [] .inp false []).blk.t0 := by decide

/-- The measurement transaction from its wait on, at the two polls where a run stands. -/
theorem witness_LowLevelWinsOverTheDeadline :
    (running ((measurement 0b00011 4 6).drop 36) .inp true [.seq]).env.script = .seq :: [] ∧
    (running ((measurement 0b00011 4 6).drop 36) .inp true [.seq]).blk.busy = true ∧
    (running ((measurement 0b00011 4 6).drop 36) .inp true [.seq]).blk.dataDir = .inp ∧
    (running ((measurement 0b00011 4 6).drop 36) .inp true [.seq]).env.sensorPull = true ∧
    (running ((measurement 0b00011 4 6).drop 36) .inp true [.seq]).blk.step.todo =
      .event (.poll (.ack .handshakeTimeout 4)) :: (measurement 0b00011 4 6).drop 37 ∧
    waitsForEvent ((measurement 0b00011 4 6).drop 37) = true ∧
    (running ((measurement 0b00011 4 6).drop 45) .inp true [.seq]).blk.step.todo =
      .event (.poll (.ready 6)) :: (measurement 0b00011 4 6).drop 46 ∧
    waitsForEvent ((measurement 0b00011 4 6).drop 46) = true := by decide

/-- A humidity measurement at the first poll of its wait, the sensor silent or pulling. -/
theorem witness_ArmingFollowsTheFace (pull : Bool) :
    (running ((measurement 0b00101 5 7).drop 44) .inp pull [.seq]).blk.step.todo =
      .update .arm :: .event (.poll (.ready 7)) :: (measurement 0b00101 5 7).drop 46 ∧
    waitsForEvent ((measurement 0b00101 5 7).drop 46) = true ∧
    (running [] .inp pull [.seq]).env.script = .seq :: [] ∧ (running [] .inp pull []).blk.busy = true ∧
    (running [] .inp pull []).blk.dataDir = .inp ∧ (running [] .inp pull []).blk.watchArmed = false ∧
    (running [] .inp pull []).blk.timerArmed = false := by revert pull; decide

/-- Both ends of the range of temperatures. -/
theorem witness_HumidityFormulaNeverOverflows :
    (0xFFFF8000#32).toInt = -32768 ∧ (258170#32).toInt = 258170 := by decide

theorem witness_CalibrationConsequences :
    (65534#16).toNat < (65535#16).toNat ∧ (16383#16).toNat ≤ 16383 ∧ (65532#16).toNat = 4 * (16383#16).toNat := by
  decide

theorem witness_NewStatusBitByBit : 0 < 8 ∧ 7 < 8 := by decide

theorem witness_InitConstructsTheSession (st ck : Byte) :
    (idle false (.host (.write 0 0x1000) :: (answerSoftReset ++ answerStatusRead st ck))).env.script =
      .host (.write 0 0x1000) :: (answerSoftReset ++ answerStatusRead st ck ++ []) ∧
    (idle false []).blk.busy = false := ⟨by simp [idle, withMoves], rfl⟩

theorem witness_SoftResetOnlyMarksTheCache :
    (idle true (.host (.write 0 0x2000) :: answerSoftReset)).env.script =
      .host (.write 0 0x2000) :: (answerSoftReset ++ []) ∧
    (idle true []).blk.busy = false ∧ (idle true []).blk.ready = true := ⟨by simp [idle, withMoves], rfl, rfl⟩

theorem witness_GetStatusRefreshesTheMode (st ck : Byte) :
    (idle true (.host (.write 0 0x3000) :: answerStatusRead st ck)).env.script =
      .host (.write 0 0x3000) :: (answerStatusRead st ck ++ []) ∧
    (idle true []).blk.busy = false ∧ (idle true []).blk.ready = true := ⟨by simp [idle, withMoves], rfl, rfl⟩

theorem witness_SetStatusBitWritesTheNewByte (word : Word) (st ck : Byte) :
    (idle true (.host (.write 0 word) :: (answerStatusRead st ck ++ answerStatusWrite))).env.script =
      .host (.write 0 word) :: (answerStatusRead st ck ++ answerStatusWrite ++ []) ∧
    (idle true []).blk.busy = false ∧ (idle true []).blk.ready = true := ⟨by simp [idle, withMoves], rfl, rfl⟩

theorem witness_WrappersWriteAndRefresh (word : Word) (st ck st' ck' : Byte) :
    (idle true (.host (.write 0 word) ::
        (answerStatusRead st ck ++ answerStatusWrite ++ answerStatusRead st' ck'))).env.script =
      .host (.write 0 word) :: (answerStatusRead st ck ++ answerStatusWrite ++ answerStatusRead st' ck' ++ []) ∧
    (idle true []).blk.busy = false ∧ (idle true []).blk.ready = true ∧
    (0x8000#16, 1#3, true) ∈
      [(0x5000#16, 0#3, true), (0x6000, 0, false), (0x7200, 2, true), (0x7000, 2, false), (0x8200, 1, false),
        (0x8000, 1, true)] := ⟨by simp [idle, withMoves], rfl, rfl, by decide⟩

theorem witness_ReadTempMeasuresAndCalibrates (word : Word) (raw : Half) :
    (idle true (.host (.write 0 word) :: answerMeasure raw)).env.script =
      .host (.write 0 word) :: (answerMeasure raw ++ []) ∧
    (idle true []).blk.busy = false ∧ (idle true []).blk.ready = true := ⟨by simp [idle, withMoves], rfl, rfl⟩

theorem witness_ReadHumidWithSuppliedTemperature (face : Bool) (raw : Half) :
    ∃ s : State, s.env.script = .host (.write 0 (if face then 0xAC00 else 0xA400)) :: (answerMeasure raw ++ []) ∧
      s.blk.busy = false ∧ s.blk.ready = true :=
  ⟨idle true _, (witness_ReadTempMeasuresAndCalibrates _ raw).1, rfl, rfl⟩

/-- The transactions, one and two measurements. -/
theorem witness_TransactionTracesAndPulses (word : Word) (st ck : Byte) (raw raw' : Half) :
    (∃ s : State, s.env.script = .host (.write 0 0x3000) :: (answerStatusRead st ck ++ []) ∧
      s.blk.busy = false ∧ s.blk.ready = true) ∧
    (∃ s : State, s.env.script = .host (.write 0 word) :: (answerStatusRead st ck ++ answerStatusWrite ++ []) ∧
      s.blk.busy = false ∧ s.blk.ready = true) ∧
    (∃ s : State, s.env.script = .host (.write 0 word) :: (answerMeasure raw ++ []) ∧
      s.blk.busy = false ∧ s.blk.ready = true) ∧
    (∃ s : State, s.env.script = .host (.write 0 word) :: (answerMeasure raw ++ answerMeasure raw' ++ []) ∧
      s.blk.busy = false ∧ s.blk.ready = true) ∧
    ∃ s : State, s.env.script = .host (.write 0 0x2000) :: (answerSoftReset ++ []) ∧
      s.blk.busy = false ∧ s.blk.ready = true :=
  ⟨⟨_, witness_GetStatusRefreshesTheMode st ck⟩, ⟨_, witness_SetStatusBitWritesTheNewByte word st ck⟩,
    ⟨_, witness_ReadTempMeasuresAndCalibrates word raw⟩,
    ⟨idle true (.host (.write 0 word) :: (answerMeasure raw ++ answerMeasure raw')), by simp [idle, withMoves], rfl, rfl⟩,
    ⟨_, witness_SoftResetOnlyMarksTheCache⟩⟩

theorem witness_ReadHumidWithNestedMeasurement (word : Word) (rawT rawH : Half) :
    (idle true (.host (.write 0 word) :: (answerMeasure rawT ++ answerMeasure rawH))).env.script =
      .host (.write 0 word) :: (answerMeasure rawT ++ answerMeasure rawH ++ []) ∧
    (idle true []).blk.busy = false ∧ (idle true []).blk.ready = true := ⟨by simp [idle, withMoves], rfl, rfl⟩

theorem witness_CalibrationOperationsAreOneStep (word : Word) :
    (idle false [.host (.write 0 word), .seq]).env.script = .host (.write 0 word) :: .seq :: [] ∧
    (idle false []).blk.busy = false := ⟨rfl, rfl⟩

/-- The bound is 0 after reset, and met by a tick of 0. -/
theorem witness_NestedTimeoutFailsTheHumidityRead (word d : Word) :
    (idle true (.host (.write 0 word) :: (clocks 32 ++ answerAck ++ clocks 2 ++ silentRounds [d]))).env.script =
      .host (.write 0 word) :: (clocks 32 ++ answerAck ++ clocks 2 ++ silentRounds [d] ++ []) ∧
    (idle true []).blk.busy = false ∧ (idle true []).blk.ready = true ∧
    (idle true []).blk.measTmo.toNat ≤ (0#32).toNat := ⟨by simp [idle, withMoves], rfl, rfl, by decide⟩

theorem witness_InitWithoutAckFailsConstruction (d : Word) :
    (idle false (.host (.write 0 0x1000) ::
        (answerSoftReset ++ clocks 34 ++ silentRounds [d] ++ clocks 1))).env.script =
      .host (.write 0 0x1000) :: (answerSoftReset ++ clocks 34 ++ silentRounds [d] ++ clocks 1 ++ []) ∧
    (idle false []).blk.busy = false ∧ (idle false []).blk.ackTmo.toNat ≤ (0#32).toNat :=
  ⟨by simp [idle, withMoves], rfl, by decide⟩

/-- An idle constructed block whose timeouts are 5 and 400, met exactly, with any moves after a command word: each of the
scripts of the two statements about failures is one. -/
theorem failure_hypotheses (word : Word) (moves : List Act) :
    ∃ s : State, s.env.script = .host (.write 0 word) :: (moves ++ []) ∧ s.blk.busy = false ∧ s.blk.ready = true ∧
      s.blk.ackTmo.toNat ≤ (5#32).toNat ∧ s.blk.measTmo.toNat ≤ (400#32).toNat :=
  ⟨withMoves { idleBlock true with ackTmo := 5, measTmo := 400 } (.host (.write 0 word) :: moves),
    by simp [withMoves], rfl, rfl, Nat.le_refl 5, Nat.le_refl 400⟩

/-- The operations at both ends of the two lists of words. -/
theorem witness_StatusFailuresLeaveTheirRecord (word : Word) (moves : List Act) :
    (∃ s : State, s.env.script = .host (.write 0 word) :: (moves ++ []) ∧ s.blk.busy = false ∧ s.blk.ready = true ∧
      s.blk.ackTmo.toNat ≤ (5#32).toNat) ∧
    writesStatus 0x4000 0 false false ∧ writesStatus 0x43C0 7 true false ∧ writesStatus 0x5000 0 true true ∧
    writesStatus 0x8000 1 true true :=
  ⟨(failure_hypotheses word moves).imp fun _ h => ⟨h.1, h.2.1, h.2.2.1, h.2.2.2.1⟩, by
    unfold writesStatus; decide⟩

theorem witness_MeasurementFailuresLeaveTheirRecord (word : Word) (moves : List Act) :
    ∃ s : State, s.env.script = .host (.write 0 word) :: (moves ++ []) ∧ s.blk.busy = false ∧ s.blk.ready = true ∧
      s.blk.ackTmo.toNat ≤ (5#32).toNat ∧ s.blk.measTmo.toNat ≤ (400#32).toNat := failure_hypotheses word moves

/-! ### States with the invariant -/

/-- A running temperature read in the asynchronous face, at its last event. -/
def lastEvent : Block :=
  { idleBlock true with
    busy := true, face := true, cmdl := 0x9800, state := .decoding
    step := { Position.empty with
      todo := [.event (.pin (.data true)), .result .latchRaw, .update (.calTemp .cached), .update .complete] } }

theorem lastEvent_inv : lastEvent.Inv := by constructor <;> decide

/-- A running status read at its last event, with bit 0 set in the byte received. -/
def lastStatusEvent : Block :=
  { idleBlock true with
    busy := true, cmdl := 0x3000, state := .decoding, acc := 0x0122
    step := { Position.empty with
      todo := [.event (.pin (.clk false)), .result .latchStatus, .update .refreshMode, .update .complete] } }

theorem lastStatusEvent_inv : lastStatusEvent.Inv := by constructor <;> decide

/-- An idle block in low resolution. -/
def lowRes : Block := { idleBlock true with resMode := true, reject := true }

theorem lowRes_inv : lowRes.Inv := by constructor <;> decide

theorem witness_SequencerStepsExactlyWhileBusy :
    (idle true [.seq]).env.script = .seq :: [] ∧ (idle true [.seq]).blk.busy = false ∧
    (withMoves lastEvent [.seq]).env.script = .seq :: [] ∧ (withMoves lastEvent [.seq]).blk.busy = true ∧
    (withMoves lastEvent [.seq]).Inv :=
  ⟨rfl, rfl, rfl, rfl, lastEvent_inv⟩

theorem witness_EveryStepKeepsInv : ∃ s t : State, s.Inv ∧ step s = .next t ∧ t.blk ≠ s.blk :=
  ⟨withMoves lastEvent [.seq], _, lastEvent_inv, rfl, by decide⟩

theorem witness_NoStopUnderInv : (withMoves lastEvent [.seq]).Inv := lastEvent_inv

theorem witness_ClockStaysDrivenUntilReset :
    ∃ s t : State, step s = .next t ∧ (∀ rest, s.env.script ≠ .reset :: rest) ∧ s.blk.clkDir = .out :=
  ⟨running [.event (.pin .release)] .out false [.seq], _, rfl, fun _ h => (by cases h), rfl⟩

/-- An idle block whose sequencer gets a turn, and a running one that the host reads. -/
theorem witness_PinsMoveOnlyWhileBusy :
    (∃ s t : State, step s = .next t ∧ (∀ rest, s.env.script ≠ .reset :: rest) ∧ s.blk.busy = false) ∧
    ∃ s t : State, step s = .next t ∧ (∀ rest, s.env.script ≠ .reset :: rest) ∧ s.blk.busy = true ∧
      ∃ a rest, s.env.script = a :: rest ∧ a ≠ .seq :=
  ⟨⟨idle true [.seq], _, rfl, fun _ h => (by cases h), rfl⟩,
    ⟨running [] .out false [.host (.read 1)], _, rfl, fun _ h => (by cases h), rfl, _, _, rfl, by decide⟩⟩

theorem witness_SequencerKeepsTheHostsRegisters :
    ∃ (s t : State) (rest : List Act), s.env.script = .seq :: rest ∧ step s = .next t ∧ t.blk ≠ s.blk :=
  ⟨withMoves lastEvent [.seq], _, [], rfl, rfl, by decide⟩

/-- Each of the three ways `RESMODE` changes. -/
theorem witness_ResModeChangesOnlyByStatusRead :
    (∃ s t : State, s.Inv ∧ step s = .next t ∧ t.blk.resMode ≠ s.blk.resMode ∧ s.env.script = .reset :: []) ∧
    (∃ s t : State, s.Inv ∧ step s = .next t ∧ t.blk.resMode ≠ s.blk.resMode ∧ t.blk.cmdl = 0x1000) ∧
    ∃ s t : State, s.Inv ∧ step s = .next t ∧ t.blk.resMode ≠ s.blk.resMode ∧ s.blk.busy = true ∧
      carries s.blk.step.todo .refreshMode :=
  ⟨⟨withMoves lowRes [.reset], _, lowRes_inv, rfl, by decide, rfl⟩,
    ⟨withMoves lowRes [.host (.write 0 0x1000)], _, lowRes_inv, rfl, by decide, by decide⟩,
    ⟨withMoves lastStatusEvent [.seq], _, lastStatusEvent_inv, rfl, by decide, rfl,
      [.event (.pin (.clk false)), .result .latchStatus], [.update .complete], rfl, .inr ⟨rfl, rfl⟩⟩⟩

/-- `REJECT` cleared by `CLR_REJECT`, by reset, and set by a refused write. -/
theorem witness_RejectIsSticky :
    field (step (withMoves lowRes [.host (.write 2 2)])) (fun b => b.reject) = some false ∧
    field (step (withMoves lowRes [.reset])) (fun b => b.reject) = some false ∧ (withMoves lowRes []).blk.reject = true ∧
    field (step (idle true [.host (.write 13 1)])) (fun b => b.reject) = some true ∧
    (idle true []).blk.reject = false := by decide

theorem witness_InterruptRisesOnlyAtCompletion :
    ∃ s t : State, step s = .next t ∧ s.blk.irqPend = false ∧ t.blk.irqPend = true :=
  ⟨withMoves { lastStatusEvent with face := true } [.seq], _, rfl, rfl, by decide⟩

/-- A terminal step, and an idle block that each of the three agents meets. -/
theorem witness_ExactlyOneOutcome :
    (∃ s t : State, s.Inv ∧ s.blk.busy = true ∧ step s = .next t ∧ t.blk.busy = false ∧
      ∀ rest, s.env.script ≠ .reset :: rest) ∧
    ∀ a : Act, (idle true [a]).blk.busy = false ∧ (idle true [a]).env.script = a :: [] :=
  ⟨⟨withMoves lastEvent [.seq], _, lastEvent_inv, rfl, rfl, rfl, fun _ h => (by cases h)⟩, fun _ => ⟨rfl, rfl⟩⟩

/-- Two states that differ in all three flags, and two that sample while driving. -/
theorem witness_InformationalStateNeverFlows :
    (idle true [.seq]).blk.agrees { (idle true []).blk with cksum := 0xA5, resStale := true, reject := true } ∧
    (idle true [.seq]).env.agrees { (idle true [.seq]).env with rdata := 7 } := by
  unfold Block.agrees Env.agrees; decide

theorem witness_EveryOperationTerminates :
    (withMoves lastEvent []).Inv ∧ (withMoves lastEvent []).blk.busy = true ∧
    ∀ m ∈ [(false, 1#32), (true, 65536#32)], 1 ≤ m.2.toNat ∧ m.2.toNat ≤ 65536 :=
  ⟨lastEvent_inv, rfl, by simp⟩

end Sys2Proof.Tests
end

section
/-! The statements about the scope of the model: which agent moves, what a step of the sequencer does to the shape of
its position, and the instruction a step runs (00_scope.md rules R13 and R14, 10_state.md rules R32 and R41). -/

namespace Sys2Proof.Machine

/-! ## The move taken off the script -/

theorem pop_eq_movedOn {s : State} {a : Act} {rest : List Act} (h : s.env.script = a :: rest) :
    s.pop = s.movedOn rest := by
  simp [State.pop, State.movedOn, h]

theorem pop_eq_movedOn_nil {s : State} (h : s.env.script = []) : s.pop = s.movedOn [] := by
  simp [State.pop, State.movedOn, h]

/-- The sequencer's turn is its fetch with the move taken off the script (R32). -/
theorem fetch_seq_movedOn {s : State} {rest : List Act} (h : s.env.script = .seq :: rest) :
    fetch s = fetchSeq (s.movedOn rest) := by
  rw [fetch_seq s rest h, pop_eq_movedOn h]

theorem step_of_fetch_run {s t : State} {i : Instr} (h : fetch s = .run i t) : step s = exec i t := by
  simp [step, h]

theorem step_of_fetch_other {s : State} {r : Result} (h : fetch s = .other r) : step s = r := by
  simp [step, h]

/-! ## The instruction a step runs -/

/-- A running sequencer whose position stands at a call fetches the wire command the call sends (R32, R99). -/
theorem fetchSeq_command {s : State} {byte : Byte} {i : Instr} {todo : List Micro} (hbusy : s.blk.busy = true)
    (htodo : (s.blk.lead s.blk.step.todo).step.todo = .event (.command byte) :: todo)
    (hdec : decodeWire byte = .instr i) :
    fetchSeq s = .run i { s with blk := (s.blk.lead s.blk.step.todo).moveTo todo } := by
  simp [fetchSeq, hbusy, htodo, hdec]

/-- A legal word written to `CMD` is the instruction of the step (R41). -/
theorem step_hostWord {s : State} {v : Word} {i : Instr} {rest : List Act}
    (h : s.env.script = .host (.write 0 v) :: rest) (hdec : decodeHost (v.setWidth 16) = .instr i) :
    step s = exec i (s.movedOn rest) := by
  rw [step_cmd s v rest h, hdec, pop_eq_movedOn h]

/-- A call the sequencer stands at on its turn is the instruction of the step (R32). -/
theorem step_wireByte {s : State} {byte : Byte} {i : Instr} {todo : List Micro} {rest : List Act}
    (h : s.env.script = .seq :: rest) (hbusy : s.blk.busy = true)
    (htodo : (s.blk.lead s.blk.step.todo).step.todo = .event (.command byte) :: todo)
    (hdec : decodeWire byte = .instr i) :
    step s = exec i { s.movedOn rest with blk := (s.blk.lead s.blk.step.todo).moveTo todo } :=
  step_of_fetch_run <| (fetch_seq_movedOn h).trans (fetchSeq_command (s := s.movedOn rest) hbusy htodo hdec)

/-- Past the script's end the turn is the sequencer's too. -/
theorem step_wireByte_unscripted {s : State} {byte : Byte} {i : Instr} {todo : List Micro}
    (h : s.env.script = []) (hbusy : s.blk.busy = true)
    (htodo : (s.blk.lead s.blk.step.todo).step.todo = .event (.command byte) :: todo)
    (hdec : decodeWire byte = .instr i) :
    step s = exec i { (s.movedOn []).unscripted with blk := (s.blk.lead s.blk.step.todo).moveTo todo } := by
  have hfetch : fetch s = fetchSeq (s.movedOn []).unscripted := by rw [fetch_nil s h, pop_eq_movedOn_nil h]
  exact step_of_fetch_run <|
    hfetch.trans (fetchSeq_command (s := (s.movedOn []).unscripted) hbusy htodo hdec)

theorem withFetchWord_host (s : State) (w : Half) : s.withFetchWord 16 w.toNat = s.withHostWord w := by
  simp [State.withFetchWord, State.placeWord]

theorem withFetchWord_wire (s : State) (byte : Byte) : s.withFetchWord 8 byte.toNat = s.withWireByte byte := by
  simp [State.withFetchWord, State.placeWord]

/-- Settles O7: the host's move, the sequencer's scripted and unscripted turn, and `withFetchWord`, which sets up
one of the first two. -/
theorem stepRunsTheDecodedInstruction : Obligations.StepRunsTheDecodedInstruction := by
  refine ⟨fun s v i rest h hdec => ?host, fun s byte i todo rest h hbusy htodo hdec => ?turn,
    fun s byte i todo h hbusy htodo hdec => ?unscripted, fun s w i hdec => ?hostWord, fun s byte i hdec => ?wireByte⟩
  case host => exact step_hostWord h (by rwa [BitVec.setWidth_eq_extractLsb' (by omega)])
  case turn => exact step_wireByte h hbusy htodo hdec
  case unscripted => exact step_wireByte_unscripted h hbusy htodo hdec
  case hostWord =>
    have hword : (w.setWidth 32).setWidth 16 = w := by simp
    rw [withFetchWord_host]
    exact step_hostWord (s := s.withHostWord w) rfl (by rwa [hword])
  case wireByte =>
    rw [withFetchWord_wire]
    exact step_wireByte (s := s.withWireByte byte) rfl rfl rfl hdec

/-! ## The shape of a position under the assignments of a step -/

/-- A position that is well shaped when the alarms may be armed is so when they are not. -/
theorem wellShaped_disarm : ∀ (todo : List Micro) (a : Shape), wellShaped a todo = true →
    wellShaped { a with armed := false } todo = true
  | [], _, h => h
  | .raise _ _ :: _, _, h => h
  | .result _ :: rest, a, h => by
    simp only [wellShaped, Bool.and_eq_true] at h ⊢
    exact h.imp_right (wellShaped_disarm rest a)
  | .update u :: rest, a, h => by
    cases u with
    | nest v => exact wellShaped_disarm rest { a with nest := v } h
    | calTemp src => exact wellShaped_disarm rest { a with tv := true } h
    | arm => exact h
    | countAck | stageWrite | markStale | setReady => exact wellShaped_disarm rest a h
    | goto | refreshMode | calHumid =>
      simp only [wellShaped, Bool.and_eq_true] at h ⊢
      exact h.imp_right (wellShaped_disarm rest a)
    | latchStatus | latchRaw => cases h
    | complete => simp_all [wellShaped]
  | .event e :: rest, a, h => by
    cases e with
    | pin p =>
      have hdrive : ({ a with armed := false } : Shape).drive p = { a.drive p with armed := false } := by
        cases p <;> rfl
      simp only [wellShaped, hdrive] at h ⊢
      exact wellShaped_disarm rest (a.drive p) h
    | latchTime | settle => exact wellShaped_disarm rest a h
    | sampleBit =>
      simp only [wellShaped, Bool.and_eq_true] at h ⊢
      exact h.imp_right (wellShaped_disarm rest a)
    | poll w | check w =>
      cases w with
      | ack kind site =>
        simp only [wellShaped, Bool.and_eq_true] at h ⊢
        exact h.imp_right (wellShaped_disarm rest a)
      | ready site => exact h
    | command byte =>
      simp only [wellShaped, Bool.and_eq_true] at h ⊢
      obtain ⟨⟨⟨_, hclk⟩, hnext⟩, hrest⟩ := h
      exact ⟨⟨⟨rfl, hclk⟩, hnext⟩, wellShaped_disarm rest { a with dir := .out } hrest⟩

/-- An assignment of a well-shaped position leaves what follows it well shaped, or it is the completion. -/
theorem wellShaped_apply (b : Block) (u : Update) (rest : List Micro)
    (h : wellShaped b.shape (.update u :: rest) = true) :
    (u = .complete ∧ rest = []) ∨ wellShaped (b.apply u).shape rest = true := by
  cases u with
  | complete =>
    have hrest : rest = [] := by simp_all [wellShaped]
    exact .inl ⟨rfl, hrest⟩
  | arm =>
    have harmed : wellShaped { b.shape with armed := true } rest = true := h
    right
    change wellShaped { b.shape with armed := b.watchArmed || b.face } rest = true
    cases b.watchArmed || b.face
    · exact wellShaped_disarm rest { b.shape with armed := true } harmed
    · exact harmed
  | latchStatus | latchRaw => cases h
  | goto | refreshMode | calHumid =>
    simp only [wellShaped, Bool.and_eq_true] at h
    exact .inr h.2
  | nest | countAck | stageWrite | markStale | calTemp | setReady => exact .inr h

/-- A procedure's result changes nothing the rest of the operation depends on. -/
theorem wellShaped_applyResult (b : Block) (u : Update) (rest : List Micro)
    (h : wellShaped b.shape (.result u :: rest) = true) : wellShaped (b.apply u).shape rest = true := by
  simp only [wellShaped, Bool.and_eq_true, Bool.or_eq_true, beq_iff_eq] at h
  obtain ⟨rfl | rfl, hrest⟩ := h <;> exact hrest

/-- The assignments before the next event keep the position well shaped, or they end the operation, with no step left
(R233). -/
theorem lead_wellShaped_or_ended : ∀ (todo : List Micro) (b : Block), wellShaped b.shape todo = true →
    wellShaped (b.lead todo).shape (b.lead todo).step.todo = true ∨
      ((b.lead todo).busy = false ∧ (b.lead todo).step.todo = [])
  | [], _, h => by cases h
  | .event e :: rest, b, h => by
    rw [lead_event]
    exact .inl h
  | .raise kind site :: rest, b, _ => by
    rw [lead_raise]
    exact .inr ⟨rfl, rfl⟩
  | .result u :: rest, b, h => by
    rw [lead_result]
    exact lead_wellShaped_or_ended rest (b.apply u) (wellShaped_applyResult b u rest h)
  | .update u :: rest, b, h => by
    rw [lead_update]
    rcases wellShaped_apply b u rest h with ⟨rfl, rfl⟩ | hrest
    · exact .inr ⟨rfl, rfl⟩
    · exact lead_wellShaped_or_ended rest (b.apply u) hrest

/-- A well-shaped position stands at a sample only with DATA an input (R124). -/
theorem dataDir_of_wellShaped_sample {b : Block} {e : SeqEvent} {rest : List Micro}
    (h : wellShaped b.shape (.event e :: rest) = true) (he : e = .sampleBit ∨ ∃ w, e = .poll w) :
    b.dataDir = .inp := by
  have hlisten : b.shape.listening = true := by
    rcases he with rfl | ⟨_ | _, rfl⟩ <;> simp_all [wellShaped]
  simp_all [Shape.listening, Block.shape]

/-! ## The sequencer's turn in a running block -/

/-- The first step of a wire command drives DATA high, as the start sequence does, whatever the command (R95, R141). -/
theorem exec_wire_next {byte : Byte} {i : Instr} (h : decodeWire byte = .instr i) (s : State) :
    ∃ b, exec i s = .next { blk := b, env := { s.env with event := some (.pin (.data true)) } } := by
  rcases decodeWire_instr h with ⟨-, rfl⟩ | ⟨-, rfl⟩ | ⟨-, rfl⟩ | ⟨-, rfl⟩ | ⟨-, rfl⟩ <;>
    exact ⟨_, beginTransaction_start .commandSent _ s⟩

/-- A step of a sequencer whose position is well shaped answers a next state, in which it has performed an event or ended
the operation: the fault of `perform` is a sample with DATA driven, which the shape rules out. -/
theorem advance_event_or_end {s : State} (hshape : wellShaped s.blk.shape s.blk.step.todo = true) :
    ∃ t, advance s = .next t ∧ t.env.script = s.env.script ∧ (t.env.event.isSome = true ∨ t.blk.busy = false) := by
  have hlead := lead_wellShaped_or_ended s.blk.step.todo s.blk hshape
  rcases advance_cases s with ⟨e, rest, htodo, hadv⟩ | ⟨htodo, hadv⟩
  · rcases perform_cases { s with blk := s.blk.lead s.blk.step.todo } rest e with
      ⟨b, ev, todo, -, hnext⟩ | ⟨-, hout, hsample⟩
    · exact ⟨_, hadv.trans hnext, rfl, .inl rfl⟩
    · rcases hlead with hshaped | ⟨-, hnil⟩
      · rw [htodo] at hshaped
        have hin := dataDir_of_wellShaped_sample hshaped hsample
        cases hout.symm.trans hin
      · cases htodo.symm.trans hnil
  · rcases hlead with hshaped | ⟨hended, -⟩
    · rw [htodo] at hshaped
      cases hshaped
    · exact ⟨_, hadv, rfl, .inr hended⟩

/-- On its turn in a running block with the invariant the sequencer performs an event or ends the operation. -/
theorem step_seq_busy {s : State} {rest : List Act} (h : s.env.script = .seq :: rest) (hbusy : s.blk.busy = true)
    (hinv : s.Inv) :
    ∃ t, step s = .next t ∧ t.env.script = rest ∧ (t.env.event.isSome = true ∨ t.blk.busy = false) := by
  have hfetch := fetch_seq_movedOn h
  rcases fetchSeq_cases (s.movedOn rest) with ⟨hidle, -⟩ | ⟨-, byte, todo, i, -, hdec, hrun⟩ | ⟨-, -, hother⟩
  · cases hidle.symm.trans hbusy
  · obtain ⟨b, hexec⟩ := exec_wire_next hdec
      { s.movedOn rest with blk := ((s.movedOn rest).blk.lead (s.movedOn rest).blk.step.todo).moveTo todo }
    exact ⟨_, (step_of_fetch_run (hfetch.trans hrun)).trans hexec, rfl, .inl rfl⟩
  · rw [step_of_fetch_other (hfetch.trans hother)]
    exact advance_event_or_end (s := s.movedOn rest) (hinv.busy_shaped hbusy)

/-- On its turn in an idle block the sequencer has no step (R32). -/
theorem step_seq_idle {s : State} {rest : List Act} (h : s.env.script = .seq :: rest) (hidle : s.blk.busy = false) :
    step s = .next (s.movedOn rest) := by
  have hstays : fetchSeq (s.movedOn rest) = .other (.next (s.movedOn rest)) := by
    simp [fetchSeq, State.movedOn, hidle]
  exact step_of_fetch_other ((fetch_seq_movedOn h).trans hstays)

/-- Settles O46: the idle turn leaves the block as it is; the busy one begins a wire command or advances the position,
whose shape the invariant gives. -/
theorem sequencerStepsExactlyWhileBusy : Obligations.SequencerStepsExactlyWhileBusy :=
  fun _ _ h => ⟨step_seq_idle h, step_seq_busy h⟩

end Sys2Proof.Machine
end

section
/-! What one step of any agent can do, said once (00_scope.md rules R13 and R14, 10_state.md rules R32 and R40 to R53):
the operations behind the instructions, the host's accesses, the sequencer's turn, and the step. -/

namespace Sys2Proof.Machine

/-! ## Host operations -/

/-- The operation uses the bus and so needs a constructed session; `INIT` constructs it (R41, R101). -/
def needsSession : Instr → Bool
  | .init => false
  | .calTemp _ => false
  | .calHumid _ => false
  | _ => true

/-- What every operation's body has from its acceptance on: a running state, a kind of error a missed handshake raises,
steps well shaped from an idle block's shape, and at most 4 handshakes (R31, R36, R58). -/
structure Startable (i : Instr) (first : SeqState) (body : Position) : Prop where
  running : first.running = true
  raises_error : body.kind ≠ .noError
  shaped : ∀ dir, wellShaped
    { dir := dir, clk := false, tv := takesArgTemp (encode i), armed := false, nest := false } body.todo = true
  budget : handshakesLeft body.todo ≤ 4

theorem startable_bodyOf {i : Instr} {first : SeqState} {calls : List Micro} {kind : ErrKind}
    (hrun : first.running = true) (hkind : kind ≠ .noError)
    (hshaped : ∀ dir, wellShaped
      { dir := dir, clk := false, tv := takesArgTemp (encode i), armed := false, nest := false }
      (calls ++ [.update .complete]) = true)
    (hbudget : handshakesLeft (calls ++ [.update .complete]) ≤ 4) (bit : BitVec 3) (val : Bool) :
    Startable i first (bodyOf calls kind bit val) :=
  ⟨hrun, hkind, hshaped, hbudget⟩

theorem startable_wrapperBody (i : Instr) (bit : BitVec 3) (val : Bool) :
    Startable i .commandSent (wrapperBody bit val) :=
  startable_bodyOf rfl (by decide) (fun _ => rfl) (by decide) bit val

theorem startable_readHumid (face tv : Bool) :
    Startable (.readHumid face tv) .commandSent (if tv then readHumidSuppliedBody else readHumidNestedBody) := by
  cases face <;> cases tv <;> exact startable_bodyOf rfl (by decide) (fun _ => rfl) (by decide) 0 false

theorem startable_calTemp (res : Bool) :
    Startable (.calTemp res) .decoding (bodyOf [.update (.calTemp (.given res))]) :=
  startable_bodyOf rfl (by decide) (fun _ => rfl) (by revert res; decide) 0 false

theorem startable_calHumid (res : Bool) :
    Startable (.calHumid res) .decoding (bodyOf [.update (.calHumid (.given res))]) := by
  cases res <;> exact startable_bodyOf rfl (by decide) (fun _ => rfl) (by decide) 0 false

/-- The meaning of a host operation is the acceptance or refusal of one startable body, the same in every state. -/
theorem exec_host {i : Instr} (h : i.format = .host) :
    ∃ first body, Startable i first body ∧ ∀ s, exec i s = issue i (needsSession i) first body s := by
  cases i with
  | init | softReset | getStatus =>
    exact ⟨_, _, startable_bodyOf rfl (by decide) (fun _ => rfl) (by decide) 0 false, fun _ => rfl⟩
  | setStatusBit bit val =>
    exact ⟨_, _, startable_bodyOf rfl (by decide) (fun _ => rfl) (by decide) (BitVec.ofNat 3 bit) val, fun _ => rfl⟩
  | setLowRes | setHighRes | setHeater val | setOtpReload val =>
    exact ⟨_, _, startable_wrapperBody _ _ _, fun _ => rfl⟩
  | readTemp face =>
    exact ⟨_, _, startable_bodyOf rfl (by decide) (fun _ => rfl) (by decide) 0 false, fun _ => rfl⟩
  | readHumid face tv => exact ⟨_, _, startable_readHumid face tv, fun _ => rfl⟩
  | calTemp res => exact ⟨_, _, startable_calTemp res, fun _ => rfl⟩
  | calHumid res => exact ⟨_, _, startable_calHumid res, fun _ => rfl⟩
  | wMeasureTemp | wMeasureRh | wReadStatus | wWriteStatus | wSoftReset => cases h

/-! ## Wire commands -/

/-- The transaction a wire command runs in block `b` (R95). -/
def transactionOf (i : Instr) (b : Block) : List Micro :=
  match i with
  | .wMeasureTemp => measurement Params.cmdMeasureTemp 4 6
  | .wMeasureRh => measurement Params.cmdMeasureRh 5 7
  | .wReadStatus => statusRead b.step.kind
  | .wWriteStatus => statusWrite (newStatus b.status b.step.bit b.step.val)
  | .wSoftReset => softResetAndSettle
  | _ => []

theorem decodeWire_format {byte : Byte} {i : Instr} (h : decodeWire byte = .instr i) : i.format = .wire := by
  rcases decodeWire_instr h with ⟨-, rfl⟩ | ⟨-, rfl⟩ | ⟨-, rfl⟩ | ⟨-, rfl⟩ | ⟨-, rfl⟩ <;> rfl

theorem exec_wire {i : Instr} (h : i.format = .wire) (s : State) :
    exec i s = beginTransaction (transactionOf i s.blk) s := by
  cases i with
  | wMeasureTemp | wMeasureRh | wReadStatus | wWriteStatus | wSoftReset => rfl
  | _ => cases h

/-! ## Host writes -/

/-- A write of `CTRL` writes `IRQ_EN` and `REJECT`; on an idle block it may acknowledge too (R43). -/
theorem writeCtrl_cases (b : Block) (v : Word) :
    (b.writeCtrl v = { b with irqEn := v.getLsbD 2, reject := b.reject && !v.getLsbD 1 }) ∨
    (b.busy = false ∧
      b.writeCtrl v = { b with irqEn := v.getLsbD 2, reject := b.reject && !v.getLsbD 1 }.ackDone) := by
  unfold Block.writeCtrl
  split
  case isTrue hack =>
    simp only [Bool.and_eq_true, Bool.not_eq_true'] at hack
    exact .inr ⟨hack.2, rfl⟩
  case isFalse => exact .inl rfl

/-- A timeout or operand register is written while no operation runs, and the write is refused otherwise (R44, R46). -/
theorem writeOperand_cases (s : State) (b : Block) :
    s.writeOperand b = s.refuseWrite ∨ (s.blk.busy = false ∧ s.writeOperand b = { s with blk := b }) := by
  unfold State.writeOperand
  cases s.blk.busy
  · exact .inr ⟨rfl, rfl⟩
  · exact .inl rfl

/-- A write of a register other than `CMD` is a write of `CTRL`, or is refused, or writes one or more of the timeout and
operand registers of an idle block (R42 to R53). -/
theorem hostWrite_cases (r : Nat) (v : Word) (s : State) :
    (r = 2 ∧ hostWrite r v s = { s with blk := s.blk.writeCtrl v }) ∨
    (hostWrite r v s = s.refuseWrite) ∨
    (s.blk.busy = false ∧ ∃ ackTmo measTmo argTemp argRaw, hostWrite r v s =
      { s with blk :=
        { s.blk with ackTmo := ackTmo, measTmo := measTmo, argTemp := argTemp, argRaw := argRaw } }) := by
  unfold hostWrite
  split
  case h_1 => exact .inl ⟨rfl, rfl⟩
  case h_6 => exact .inr (.inl rfl)
  case h_2 | h_3 | h_4 | h_5 =>
    rcases writeOperand_cases s _ with h | ⟨hidle, h⟩
    · exact .inr (.inl h)
    · exact .inr (.inr ⟨hidle, _, _, _, _, h⟩)

/-! ## The sequencer's turn -/

/-- The sequencer has the turn: its move is the script's next, or the script is over.  It moves in `u`. -/
inductive SequencerTurn (s : State) : State → Prop where
  | scripted (rest : List Act) (h : s.env.script = .seq :: rest) : SequencerTurn s (s.movedOn rest)
  | unscripted (h : s.env.script = []) : SequencerTurn s (s.movedOn []).unscripted

theorem SequencerTurn.blk_eq {s u : State} (turn : SequencerTurn s u) : u.blk = s.blk := by
  cases turn <;> rfl

theorem SequencerTurn.script {s u : State} (turn : SequencerTurn s u) :
    s.env.script = [] ∨ ∃ rest, s.env.script = .seq :: rest := by
  cases turn with
  | scripted rest h => exact .inr ⟨rest, h⟩
  | unscripted h => exact .inl h

/-- What the sequencer's turn in `u` answers: it rests while idle, begins a wire command, or moves on by one step. -/
inductive SequencerMove (u : State) (r : Result) : Prop where
  | rests (hidle : u.blk.busy = false) (hr : r = .next u)
  | calls (byte : Byte) (i : Instr) (todo : List Micro) (hbusy : u.blk.busy = true)
      (htodo : (u.blk.lead u.blk.step.todo).step.todo = .event (.command byte) :: todo)
      (hdec : decodeWire byte = .instr i)
      (hr : r = exec i { u with blk := (u.blk.lead u.blk.step.todo).moveTo todo })
  | advances (hbusy : u.blk.busy = true)
      (hnone : ∀ byte todo i, (u.blk.lead u.blk.step.todo).step.todo = .event (.command byte) :: todo →
        decodeWire byte ≠ .instr i)
      (hr : r = advance u)

theorem SequencerTurn.fetch_eq {s u : State} (turn : SequencerTurn s u) : fetch s = fetchSeq u := by
  cases turn with
  | scripted rest h => exact fetch_seq_movedOn h
  | unscripted h => rw [fetch_nil s h, pop_eq_movedOn_nil h]

/-- On the sequencer's turn the step is the sequencer's move. -/
theorem SequencerTurn.move {s u : State} (turn : SequencerTurn s u) : SequencerMove u (step s) := by
  have hfetch := turn.fetch_eq
  rcases fetchSeq_cases u with ⟨hidle, hother⟩ | ⟨hbusy, byte, todo, i, htodo, hdec, hrun⟩ | ⟨hbusy, hnone, hother⟩
  · exact .rests hidle (step_of_fetch_other (hfetch.trans hother))
  · exact .calls byte i todo hbusy htodo hdec (step_of_fetch_run (hfetch.trans hrun))
  · exact .advances hbusy hnone (step_of_fetch_other (hfetch.trans hother))

/-! ## The step -/

/-- Everything a step can answer, by the agent that moves (R14, R40 to R53, R101, R320). -/
inductive StepCase (s : State) (r : Result) : Prop where
  | sequencer (u : State) (turn : SequencerTurn s u) (move : SequencerMove u r)
  | read (reg : Nat) (rest : List Act) (h : s.env.script = .host (.read reg) :: rest)
      (hr : r = .next (hostRead reg (s.movedOn rest)))
  | accept (v : Word) (i : Instr) (first : SeqState) (body : Position) (rest : List Act)
      (h : s.env.script = .host (.write 0 v) :: rest) (hdec : decodeHost (v.setWidth 16) = .instr i)
      (hidle : s.blk.busy = false) (hstart : Startable i first body)
      (hr : r = .next { s.movedOn rest with blk := s.blk.accept (encode i) body first })
  | refuse (v : Word) (rest : List Act) (h : s.env.script = .host (.write 0 v) :: rest)
      (hr : r = .next (s.movedOn rest).refuseWrite)
  | write (reg : Nat) (v : Word) (rest : List Act) (h : s.env.script = .host (.write reg v) :: rest)
      (hr : r = .next (hostWrite reg v (s.movedOn rest)))
  | sensor (pull : Bool) (rest : List Act) (h : s.env.script = .sensor pull :: rest)
      (hr : r = .next { s.movedOn rest with env := { (s.movedOn rest).env with sensorPull := pull } })
  | tick (n : Time) (rest : List Act) (h : s.env.script = .tick n :: rest)
      (hr : r = .next { s.movedOn rest with env := { (s.movedOn rest).env with now := s.env.now + n } })
  | reset (rest : List Act) (h : s.env.script = .reset :: rest)
      (hr : r = .next { s.movedOn rest with blk := Block.reset })

/-- The outcome of a write to `CMD` (R41, R101). -/
theorem step_cmd_case {s : State} {v : Word} {rest : List Act} (h : s.env.script = .host (.write 0 v) :: rest) :
    StepCase s (step s) := by
  have hstep := step_cmd s v rest h
  rw [pop_eq_movedOn h] at hstep
  cases hdec : decodeHost (v.setWidth 16) with
  | rejected why =>
    rw [hdec] at hstep
    exact .refuse v rest h hstep
  | instr i =>
    rw [hdec] at hstep
    obtain ⟨first, body, hstart, hexec⟩ := exec_host (decodeHost_format hdec)
    rcases issue_cases i (needsSession i) first body (s.movedOn rest) with ⟨hissue, hidle, -⟩ | ⟨hissue, -⟩
    · exact .accept v i first body rest h hdec hidle hstart (hstep.trans ((hexec _).trans hissue))
    · exact .refuse v rest h (hstep.trans ((hexec _).trans hissue))

theorem step_case (s : State) : StepCase s (step s) := by
  match h : s.env.script with
  | [] => exact .sequencer _ (.unscripted h) (SequencerTurn.unscripted h).move
  | .seq :: rest => exact .sequencer _ (.scripted rest h) (SequencerTurn.scripted rest h).move
  | .host (.read reg) :: rest => exact .read reg rest h (by rw [step_read s reg rest h, pop_eq_movedOn h])
  | .host (.write 0 v) :: rest => exact step_cmd_case h
  | .host (.write (reg + 1) v) :: rest =>
    exact .write (reg + 1) v rest h (by rw [step_write s (reg + 1) v rest (by omega) h, pop_eq_movedOn h])
  | .sensor pull :: rest => exact .sensor pull rest h (by rw [step_sensor s pull rest h, pop_eq_movedOn h])
  | .tick n :: rest => exact .tick n rest h (by rw [step_tick s n rest h, pop_eq_movedOn h])
  | .reset :: rest => exact .reset rest h (by rw [step_reset s rest h, pop_eq_movedOn h])

end Sys2Proof.Machine
end

section
/-! The invariant along every step (10_state.md rule R58): a running operation carries it from assignment to assignment
and from event to event, and every other agent's step keeps it. -/

namespace Sys2Proof.Machine

/-! ## The shape after each procedure -/

/-- What follows pin events finds the shape they leave (R121 to R123). -/
theorem wellShaped_emits (rest : List Micro) : ∀ (es : List PinEvent) (a : Shape),
    wellShaped a (emits es ++ rest) = wellShaped (es.foldl Shape.drive a) rest
  | [], _ => rfl
  | e :: es, a => wellShaped_emits rest es (a.drive e)

/-- A byte sent ends with DATA driven and CLOCK low (R142). -/
theorem shape_sendByte (byte : Byte) (a : Shape) :
    (sendByte byte).foldl Shape.drive a = { a with dir := .out, clk := false } := rfl

/-- A command sent ends with DATA driven and CLOCK low (R141, R143). -/
theorem shape_sendFrame (byte : Byte) (a : Shape) :
    (sendFrame byte).foldl Shape.drive a = { a with dir := .out, clk := false } := rfl

/-- A handshake ends with DATA driven and CLOCK low (R160). -/
theorem wellShaped_awaitAck {kind : ErrKind} (hkind : kind ≠ .noError) (site : BitVec 3) (a : Shape)
    (hclk : a.clk = false) (rest : List Micro) :
    wellShaped a (awaitAck kind site ++ rest) = wellShaped { a with dir := .out, clk := false } rest := by
  have hraises : (kind != .noError) = true := by simpa using hkind
  change (({ a with dir := .inp } : Shape).listening && kind != .noError &&
    wellShaped { a with dir := .out, clk := false } rest) = _
  simp [Shape.listening, hclk, hraises]

/-- A wait for a measurement leaves DATA an input, CLOCK low and the alarms disarmed (R224, R237). -/
theorem wellShaped_awaitReady (site : BitVec 3) (a : Shape) (hclk : a.clk = false) (rest : List Micro) :
    wellShaped a (awaitReady site ++ rest) = wellShaped { a with dir := .inp, armed := false } rest := by
  change (({ a with dir := .inp, armed := true } : Shape).listening &&
    wellShaped { a with dir := .inp, armed := false } rest) = _
  simp [Shape.listening, hclk]

/-! ## The shape of a transaction -/

/-- What follows a sent byte finds DATA driven and CLOCK low (R142). -/
theorem wellShaped_sendByte (byte : Byte) (a : Shape) (rest : List Micro) :
    wellShaped a (emits (sendByte byte) ++ rest) = wellShaped { a with dir := .out, clk := false } rest := by
  rw [wellShaped_emits, shape_sendByte]

theorem wellShaped_sendCommand (cmd : BitVec 5) (a : Shape) (rest : List Micro) :
    wellShaped a (emits (sendCommand cmd) ++ rest) = wellShaped { a with dir := .out, clk := false } rest := by
  rw [wellShaped_emits, sendCommand, shape_sendFrame]

/-- The acknowledged bytes of `read8` leave DATA driven and CLOCK low (R172). -/
theorem wellShaped_read8 (a : Shape) (hclk : a.clk = false) (rest : List Micro) :
    wellShaped a (read8 ++ rest) = wellShaped { a with dir := .out } rest := by
  obtain ⟨dir, clk, tv, armed, nest⟩ := a
  cases hclk
  rfl

/-- The two bytes of `read16` leave DATA driven and CLOCK low (R173). -/
theorem wellShaped_read16 (a : Shape) (hclk : a.clk = false) (rest : List Micro) :
    wellShaped a (read16 ++ rest) = wellShaped { a with dir := .out } rest := by
  obtain ⟨dir, clk, tv, armed, nest⟩ := a
  cases hclk
  rfl

theorem wellShaped_statusRead {kind : ErrKind} (hkind : kind ≠ .noError) (a : Shape) (rest : List Micro) :
    wellShaped a (statusRead kind ++ rest) =
      (callNext rest && wellShaped { a with dir := .out, clk := false } rest) := by
  simp [statusRead, SeqState.running, wellShaped_sendCommand, wellShaped_awaitAck hkind,
    wellShaped_read8, wellShaped]

theorem wellShaped_statusWrite (new : Byte) (a : Shape) (rest : List Micro) :
    wellShaped a (statusWrite new ++ rest) = wellShaped { a with dir := .out, clk := false } rest := by
  simp [statusWrite, SeqState.running, wellShaped_sendCommand, wellShaped_sendByte,
    wellShaped_awaitAck, wellShaped]

theorem wellShaped_measurement (cmd : BitVec 5) (siteA siteM : BitVec 3) (a : Shape) (rest : List Micro) :
    wellShaped a (measurement cmd siteA siteM ++ rest) =
      wellShaped { a with dir := .out, clk := false, armed := false } rest := by
  simp [measurement, SeqState.running, wellShaped_sendCommand, wellShaped_awaitAck,
    wellShaped_awaitReady, wellShaped_read16, wellShaped]

theorem wellShaped_softResetAndSettle (a : Shape) (rest : List Micro) :
    wellShaped a (softResetAndSettle ++ rest) = wellShaped { a with dir := .out, clk := false } rest := by
  simp [softResetAndSettle, SeqState.running, wellShaped_sendCommand, wellShaped]

/-- A wire command's transaction is well shaped before whatever the call it stands for may come before. -/
theorem wellShaped_transactionOf {i : Instr} (hwire : i.format = .wire) {b : Block} (hkind : b.step.kind ≠ .noError)
    {a : Shape} {rest : List Micro} {byte : Byte} (h : wellShaped a (.event (.command byte) :: rest) = true) :
    wellShaped a (transactionOf i b ++ rest) = true := by
  obtain ⟨dir, clk, tv, armed, nest⟩ := a
  simp only [wellShaped, Bool.and_eq_true, Bool.not_eq_true'] at h
  obtain ⟨⟨⟨rfl, rfl⟩, hnext⟩, hrest⟩ := h
  cases i with
  | wMeasureTemp | wMeasureRh => exact (wellShaped_measurement _ _ _ _ rest).trans hrest
  | wReadStatus => exact (wellShaped_statusRead hkind _ rest).trans (by simp [hnext, hrest])
  | wWriteStatus => exact (wellShaped_statusWrite _ _ rest).trans hrest
  | wSoftReset => exact (wellShaped_softResetAndSettle _ rest).trans hrest
  | _ => cases hwire

/-! ## The handshakes left -/

theorem handshakesLeft_append (ys : List Micro) : ∀ xs : List Micro,
    handshakesLeft (xs ++ ys) = handshakesLeft xs + handshakesLeft ys
  | [] => (Nat.zero_add _).symm
  | .raise _ _ :: xs | .result _ :: xs => handshakesLeft_append ys xs
  | .event e :: xs => by
    have ih := handshakesLeft_append ys xs
    cases e <;> simp only [List.cons_append, handshakesLeft] <;> omega
  | .update u :: xs => by
    have ih := handshakesLeft_append ys xs
    cases u <;> simp only [List.cons_append, handshakesLeft] <;> omega

/-- Pin events wait for no handshake. -/
theorem handshakesLeft_emits : ∀ es : List PinEvent, handshakesLeft (emits es) = 0
  | [] => rfl
  | _ :: es => handshakesLeft_emits es

/-- A transaction waits for the handshakes its command byte stands for. -/
theorem handshakesLeft_transactionOf {byte : Byte} {i : Instr} (hdec : decodeWire byte = .instr i) (b : Block) :
    handshakesLeft (transactionOf i b) = handshakesOf byte := by
  rcases decodeWire_instr hdec with ⟨rfl, rfl⟩ | ⟨rfl, rfl⟩ | ⟨rfl, rfl⟩ | ⟨rfl, rfl⟩ | ⟨rfl, rfl⟩ <;> rfl

/-! ## A running operation -/

/-- The invariant of a block in the middle of an operation, `todo` being what is left of it: between two assignments a
humidity may be valid too, when only the completion is left. -/
structure Block.Running (b : Block) (todo : List Micro) : Prop where
  busy : b.busy = true
  not_done : b.done = false
  in_run : b.state.running = true
  no_error : b.errKind = .noError
  raises_error : b.step.kind ≠ .noError
  humid_last : b.hValid = true → b.tValid = true ∧ todo = [.update .complete]
  armed_together : b.watchArmed = b.timerArmed
  no_irq : b.irqPend = false
  shaped : wellShaped b.shape todo = true
  budget : b.ackCnt.toNat + handshakesLeft todo ≤ 4

namespace Block

theorem Inv.running {b : Block} (h : b.Inv) (hbusy : b.busy = true) : b.Running b.step.todo := by
  obtain ⟨hdone, hrun⟩ := h.busy_running hbusy
  obtain ⟨hclean, hhumid, hkind⟩ := h.busy_clean hbusy
  refine ⟨hbusy, hdone, hrun, hclean, hkind, ?humid, h.armed_together, ?irq, h.busy_shaped hbusy, h.ack_budget⟩
  case humid => simp [hhumid]
  case irq =>
    by_contra hirq
    have hdone' := (h.irq_async (by simpa using hirq)).1
    cases hdone.symm.trans hdone'

/-- A block with the invariant that stands at an event is running. -/
theorem Inv.running_at {b : Block} {e : SeqEvent} {rest : List Micro} (h : b.Inv)
    (htodo : b.step.todo = .event e :: rest) : b.Running (.event e :: rest) := by
  rw [← htodo]
  refine h.running ?_
  by_contra hidle
  rw [h.idle_empty (by simpa using hidle)] at htodo
  cases htodo

/-- Before an event no humidity is valid yet. -/
theorem Running.no_humid {b : Block} {todo : List Micro} (h : b.Running todo) (hne : todo ≠ [.update .complete]) :
    b.hValid = false := by
  by_contra hvalid
  exact hne (h.humid_last (by simpa using hvalid)).2

/-- A running operation with no humidity computed yet has the invariant where it stands. -/
theorem Running.inv_moveTo {b : Block} {todo : List Micro} (h : b.Running todo) (hnh : b.hValid = false) :
    (b.moveTo todo).Inv where
  busy_running _ := ⟨h.not_done, h.in_run⟩
  idle_quiet hidle := by cases h.busy.symm.trans hidle
  done_ok _ := h.no_error
  failed_error hfailed := by
    have hrun := h.in_run
    rw [show b.state = .failed from hfailed] at hrun
    cases hrun
  done_iff_terminal hidle := by cases h.busy.symm.trans hidle
  humid_valid hvalid := by cases hnh.symm.trans hvalid
  error_invalid herr := absurd h.no_error herr
  armed_together := h.armed_together
  irq_async hirq := by cases h.no_irq.symm.trans hirq
  busy_clean _ := ⟨h.no_error, hnh, h.raises_error⟩
  idle_empty hidle := by cases h.busy.symm.trans hidle
  busy_shaped _ := h.shaped
  idle_clk_low hidle := by cases h.busy.symm.trans hidle
  ack_budget := h.budget

/-- A failure of a running operation has the invariant (R229). -/
theorem Running.inv_fail {b : Block} {kind : ErrKind} {site : BitVec 3} {rest : List Micro}
    (h : b.Running (.raise kind site :: rest)) : (b.fail kind site).Inv := by
  have hshaped : kind ≠ .noError ∧ rest = [] ∧ b.clkOut = false := by
    simpa [wellShaped, Block.shape, and_assoc] using h.shaped
  obtain ⟨hkind, -, hclk⟩ := hshaped
  exact {
    busy_running := nofun
    idle_quiet _ := ⟨rfl, rfl, rfl, rfl⟩
    done_ok := nofun
    failed_error _ := hkind
    done_iff_terminal _ := ⟨nofun, fun _ => rfl⟩
    humid_valid := nofun
    error_invalid _ := ⟨rfl, fun htemp => by
      rw [fail_tValid, show b.isReadTemp = true from htemp]
      simp⟩
    armed_together := rfl
    irq_async hirq := ⟨rfl, by simpa [h.no_irq] using hirq⟩
    busy_clean := nofun
    idle_empty _ := rfl
    busy_shaped := nofun
    idle_clk_low _ := hclk
    ack_budget := (Nat.le_add_right _ _).trans h.budget }

/-- The completion of a running operation has the invariant (R228). -/
theorem Running.inv_complete {b : Block} {rest : List Micro} (h : b.Running (.update .complete :: rest)) :
    b.complete.Inv := by
  have hshaped : rest = [] ∧ b.watchArmed = false ∧ b.nest = false ∧ b.clkOut = false := by
    simpa [wellShaped, Block.shape, and_assoc] using h.shaped
  obtain ⟨-, harmed, hnest, hclk⟩ := hshaped
  exact {
    busy_running := nofun
    idle_quiet _ := ⟨rfl, harmed, h.armed_together ▸ harmed, hnest⟩
    done_ok _ := h.no_error
    failed_error := nofun
    done_iff_terminal _ := ⟨nofun, fun _ => rfl⟩
    humid_valid hvalid := ⟨h.no_error, (h.humid_last hvalid).1⟩
    error_invalid herr := absurd h.no_error herr
    armed_together := h.armed_together
    irq_async hirq := ⟨rfl, by simpa [h.no_irq] using hirq⟩
    busy_clean := nofun
    idle_empty _ := rfl
    busy_shaped := nofun
    idle_clk_low _ := hclk
    ack_budget := (Nat.le_add_right _ _).trans h.budget }

/-- An assignment other than the completion leaves the operation running with what follows it. -/
theorem Running.apply {b : Block} {u : Update} {rest : List Micro} (h : b.Running (.update u :: rest))
    (hu : u ≠ .complete) : (b.apply u).Running rest := by
  have hnh : b.hValid = false := h.no_humid (by simpa using fun hc => absurd hc hu)
  have hshaped : wellShaped (b.apply u).shape rest = true :=
    (wellShaped_apply b u rest h.shaped).resolve_left fun hc => hu hc.1
  have hbudget := h.budget
  cases u with
  | complete => exact absurd rfl hu
  | countAck =>
    have hcount : (b.ackCnt + 1).toNat + handshakesLeft rest ≤ 4 := by
      have hone : (1 : BitVec 3).toNat = 1 := rfl
      rw [handshakesLeft] at hbudget
      rw [BitVec.toNat_add, hone]
      omega
    exact { h with shaped := hshaped, budget := hcount, humid_last := by simp [hnh] }
  | arm =>
    exact { h with
      shaped := hshaped, budget := hbudget, humid_last := by simp [hnh]
      armed_together := congrArg (· || b.face) h.armed_together }
  | goto st =>
    have hst : st.running = true := by
      have := h.shaped
      simp_all [wellShaped]
    exact { h with shaped := hshaped, budget := hbudget, humid_last := by simp [hnh], in_run := hst }
  | calHumid src =>
    have hlast : b.tValid = true ∧ rest = [.update .complete] := by
      have := h.shaped
      simp_all [wellShaped, Block.shape]
    exact { h with shaped := hshaped, budget := hbudget, humid_last := fun _ => hlast }
  | nest v | latchStatus | refreshMode | stageWrite | markStale | latchRaw | calTemp | setReady =>
    exact { h with shaped := hshaped, budget := hbudget, humid_last := by simp [hnh] }

/-- A procedure's result leaves the operation running with what follows it. -/
theorem Running.applyResult {b : Block} {u : Update} {rest : List Micro} (h : b.Running (.result u :: rest)) :
    (b.apply u).Running rest := by
  have hnh : b.hValid = false := h.no_humid (by simp)
  have hshaped := wellShaped_applyResult b u rest h.shaped
  have hu : u = .latchStatus ∨ u = .latchRaw := by
    have := h.shaped
    simp_all [wellShaped]
  obtain rfl | rfl := hu <;>
    exact { h with shaped := hshaped, budget := h.budget, humid_last := by simp [hnh] }

/-- The assignments before an event lead to a block with the invariant: at that event, completed or failed (R233). -/
theorem Running.inv_lead : ∀ {todo : List Micro} {b : Block}, b.Running todo → (b.lead todo).Inv
  | [], _, h => by cases h.shaped
  | .event e :: rest, _, h => h.inv_moveTo (h.no_humid (by simp))
  | .raise kind site :: rest, _, h => h.inv_fail
  | .result u :: rest, _, h => h.applyResult.inv_lead
  | .update u :: rest, b, h => by
    rw [lead_update]
    by_cases hu : u = .complete
    · subst hu
      have hrest : rest = [] := by
        have := h.shaped
        simp_all [wellShaped]
      subst hrest
      exact h.inv_complete
    · exact (h.apply hu).inv_lead

/-- The assignments that belong to an event lead to a block with the invariant (R233). -/
theorem Running.inv_trail : ∀ {todo : List Micro} {b : Block}, b.Running todo → (b.trail todo).Inv
  | [], _, h => by cases h.shaped
  | .event e :: rest, _, h => h.inv_moveTo (h.no_humid (by simp))
  | .raise kind site :: rest, _, h => h.inv_fail
  | .result u :: rest, _, h => h.applyResult.inv_trail
  | .update u :: rest, b, h => by
    rw [trail_update]
    split
    case isTrue hevent => exact h.inv_moveTo (h.no_humid (by rintro ⟨⟩; cases hevent))
    case isFalse => exact h.inv_lead

end Block

/-! ## Wire events -/

/-- The sample and the time read of a wait loop ask the same of the shape (R160, R224). -/
theorem wellShaped_poll_eq_check (w : Wait) (a : Shape) (rest : List Micro) :
    wellShaped a (.event (.poll w) :: rest) = wellShaped a (.event (.check w) :: rest) := by
  cases w <;> rfl

/-- A wire event leaves the operation running with the position it leads to (R121 to R125, R160, R224). -/
theorem Performs.running {s : State} {rest todo : List Micro} {e : SeqEvent} {b : Block} {ev : WireEvent}
    (h : Performs s rest e b ev todo) (hrun : s.blk.Running (.event e :: rest)) : b.Running todo := by
  have hnh : s.blk.hValid = false := hrun.no_humid (by simp)
  have hshaped := hrun.shaped
  have hbudget : s.blk.ackCnt.toNat + handshakesLeft rest ≤ 4 := by
    have := hrun.budget
    cases e <;> simp only [handshakesLeft] at this <;> omega
  cases h with
  | pin e =>
    have hshaped : wellShaped (s.blk.drive e).shape rest = true := by cases e <;> exact hshaped
    cases e <;> exact { hrun with shaped := hshaped, budget := hbudget, humid_last := by simp [hnh] }
  | sampleBit hin =>
    have hrest : wellShaped s.blk.shape rest = true := by
      simp only [wellShaped, Bool.and_eq_true] at hshaped
      exact hshaped.2
    exact { hrun with shaped := hrest, budget := hbudget, humid_last := by simp [hnh] }
  | latchTime | settled => exact { hrun with shaped := hshaped, budget := hbudget, humid_last := by simp [hnh] }
  | settling => exact { hrun with }
  | pollSilent w =>
    exact { hrun with
      shaped := (wellShaped_poll_eq_check w _ rest).symm.trans hshaped
      budget := hbudget, humid_last := by simp [hnh] }
  | checkRemains w =>
    exact { hrun with
      shaped := (wellShaped_poll_eq_check w _ rest).trans hshaped
      budget := hbudget, humid_last := by simp [hnh] }
  | pollGranted w =>
    cases w with
    | ack kind site =>
      simp only [wellShaped, Bool.and_eq_true] at hshaped
      exact { hrun with shaped := hshaped.2, budget := hbudget, humid_last := by simp [hnh] }
    | ready site =>
      simp only [wellShaped, Bool.and_eq_true] at hshaped
      exact { hrun with
        shaped := hshaped.2, budget := hbudget, humid_last := by simp [hnh], armed_together := rfl }
  | checkPassed w =>
    have htimedOut : wellShaped s.blk.shape (timedOut w) = true := by
      cases w <;> simp_all [wellShaped, Shape.listening, timedOut, ackFailed, Shape.drive]
    have hnone : handshakesLeft (timedOut w) = 0 := by cases w <;> rfl
    exact { hrun with shaped := htimedOut, budget := by omega, humid_last := by simp [hnh] }
  | command byte e es hframe =>
    have hrest : wellShaped (s.blk.drive e).shape (emits es ++ rest) = true := by
      have hdrive : (s.blk.drive e).shape = s.blk.shape.drive e := by cases e <;> rfl
      simp only [wellShaped, Bool.and_eq_true, Bool.not_eq_true'] at hshaped
      obtain ⟨⟨⟨-, hclk⟩, -⟩, hrest⟩ := hshaped
      have hend := shape_sendFrame byte s.blk.shape
      rw [hframe, List.foldl_cons] at hend
      rw [wellShaped_emits, hdrive, hend]
      rwa [← hclk]
    have hleft : handshakesLeft (emits es ++ rest) = handshakesLeft rest := by
      rw [handshakesLeft_append, handshakesLeft_emits, Nat.zero_add]
    cases e <;>
      exact { hrun with shaped := hrest, budget := hleft ▸ hbudget, humid_last := by simp [hnh] }

/-! ## The sequencer's turn -/

/-- A step of a running sequencer keeps the invariant. -/
theorem advance_keeps_inv {s t : State} (hrun : s.blk.Running s.blk.step.todo) (hstep : advance s = .next t) :
    t.Inv := by
  have hlead := hrun.inv_lead
  rcases advance_cases s with ⟨e, rest, htodo, hadv⟩ | ⟨htodo, hadv⟩
  · have hevent := hlead.running_at htodo
    rcases perform_cases { s with blk := s.blk.lead s.blk.step.todo } rest e with
      ⟨b, ev, todo, hperforms, hnext⟩ | ⟨hfault, -⟩
    · cases hstep.symm.trans (hadv.trans hnext)
      exact (hperforms.running hevent).inv_trail
    · cases hstep.symm.trans (hadv.trans hfault)
  · cases hstep.symm.trans hadv
    exact hlead

/-- A wire command leaves the operation running at the first step of its transaction. -/
theorem running_transaction {b : Block} {byte : Byte} {i : Instr} {rest : List Micro}
    (hrun : b.Running (.event (.command byte) :: rest)) (hdec : decodeWire byte = .instr i) :
    b.Running (transactionOf i b ++ rest) := by
  have hnh : b.hValid = false := hrun.no_humid (by simp)
  have hleft : handshakesLeft (transactionOf i b ++ rest) = handshakesLeft (.event (.command byte) :: rest) := by
    rw [handshakesLeft_append, handshakesLeft_transactionOf hdec, handshakesLeft, Nat.add_comm]
  exact { hrun with
    shaped := wellShaped_transactionOf (decodeWire_format hdec) hrun.raises_error hrun.shaped
    budget := hleft ▸ hrun.budget
    humid_last := by simp [hnh] }

/-- The sequencer's turn keeps the invariant. -/
theorem SequencerMove.keeps_inv {u t : State} (h : SequencerMove u (.next t)) (hinv : u.Inv) : t.Inv := by
  cases h with
  | rests hidle hr =>
    cases hr
    exact hinv
  | advances hbusy _ hr => exact advance_keeps_inv (hinv.running hbusy) hr.symm
  | calls byte i todo hbusy htodo hdec hr =>
    have hlead := (hinv.running hbusy).inv_lead
    have hrun := hlead.running_at htodo
    rw [exec_wire (decodeWire_format hdec)] at hr
    exact advance_keeps_inv { running_transaction hrun hdec with } hr.symm

/-! ## The other agents -/

/-- Acceptance puts the operation at the first step of a startable body (R222). -/
theorem accept_running {b : Block} {i : Instr} {first : SeqState} {body : Position} (hinv : b.Inv)
    (hidle : b.busy = false) (hstart : Startable i first body) :
    (b.accept (encode i) body first).Running body.todo where
  busy := rfl
  not_done := rfl
  in_run := hstart.running
  no_error := rfl
  raises_error := hstart.raises_error
  humid_last := nofun
  armed_together := rfl
  no_irq := rfl
  shaped := by
    change wellShaped
      { dir := b.dataDir, clk := b.clkOut, tv := takesArgTemp (encode i), armed := false, nest := false }
      body.todo = true
    rw [hinv.idle_clk_low hidle]
    exact hstart.shaped b.dataDir
  budget := (Nat.zero_add _).trans_le hstart.budget

/-- An accepted operation has the invariant. -/
theorem accept_keeps_inv {b : Block} {i : Instr} {first : SeqState} {body : Position} (hinv : b.Inv)
    (hidle : b.busy = false) (hstart : Startable i first body) : (b.accept (encode i) body first).Inv :=
  (accept_running hinv hidle hstart).inv_moveTo rfl

/-- `ACK_DONE` on an idle block keeps the invariant (R43, R289). -/
theorem ackDone_keeps_inv {b : Block} (h : b.Inv) (hidle : b.busy = false) : b.ackDone.Inv := by
  obtain ⟨hrun, hwatch, htimer, hnest⟩ := h.idle_quiet hidle
  have hstate : b.ackDone.state = .idle := by
    revert hrun
    cases hst : b.state <;> simp [Block.ackDone, hst, SeqState.running]
  exact { h with
    busy_running := fun hbusy => by cases hidle.symm.trans hbusy
    idle_quiet := fun _ => ⟨by rw [hstate]; rfl, hwatch, htimer, hnest⟩
    done_ok := fun hdone => by cases hstate.symm.trans hdone
    failed_error := fun hfailed => by cases hstate.symm.trans hfailed
    done_iff_terminal := fun _ => ⟨nofun, fun hne => absurd hstate hne⟩
    irq_async := nofun }

/-- A write of a register other than `CMD` keeps the invariant. -/
theorem hostWrite_keeps_inv {s : State} (hinv : s.Inv) (r : Nat) (v : Word) : (hostWrite r v s).Inv := by
  rcases hostWrite_cases r v s with ⟨-, hctrl⟩ | hrefused | ⟨-, ackTmo, measTmo, argTemp, argRaw, hoperand⟩
  · rw [hctrl]
    have hflags : ({ s.blk with irqEn := v.getLsbD 2, reject := s.blk.reject && !v.getLsbD 1 } : Block).Inv :=
      { hinv with }
    rcases writeCtrl_cases s.blk v with hwrite | ⟨hidle, hack⟩
    · exact hwrite ▸ hflags
    · exact hack ▸ ackDone_keeps_inv hflags hidle
  · rw [hrefused]
    exact { hinv with }
  · rw [hoperand]
    exact { hinv with }

/-! ## The statements about the invariant -/

/-- Settles O47: the reset block is idle with every flag clear (R56). -/
theorem invHoldsAtReset : Obligations.InvHoldsAtReset := by
  constructor <;> decide

/-- Settles O48: one case for each agent; the sequencer's is the running operation, carried along. -/
theorem everyStepKeepsInv : Obligations.EveryStepKeepsInv := by
  intro s t hinv hstep
  have hcase := step_case s
  rw [hstep] at hcase
  cases hcase with
  | sequencer u turn move => exact move.keeps_inv (show u.blk.Inv from turn.blk_eq ▸ hinv)
  | read _ _ _ hr | sensor _ _ _ hr | tick _ _ _ hr =>
    cases hr
    exact hinv
  | accept v i first body rest h hdec hidle hstart hr =>
    cases hr
    exact accept_keeps_inv hinv hidle hstart
  | refuse v rest h hr =>
    cases hr
    exact { hinv with }
  | write r v rest h hr =>
    cases hr
    exact hostWrite_keeps_inv (s := s.movedOn rest) hinv r v
  | reset rest h hr =>
    cases hr
    exact invHoldsAtReset

/-- The sequencer's turn in a state with the invariant answers a next state (R124). -/
theorem SequencerMove.next {u : State} {r : Result} (h : SequencerMove u r) (hinv : u.Inv) : ∃ t, r = .next t := by
  cases h with
  | rests hidle hr => exact ⟨_, hr⟩
  | calls byte i todo hbusy htodo hdec hr =>
    obtain ⟨b, hexec⟩ := exec_wire_next hdec { u with blk := (u.blk.lead u.blk.step.todo).moveTo todo }
    exact ⟨_, hr.trans hexec⟩
  | advances hbusy _ hr =>
    obtain ⟨t, hnext, -⟩ := advance_event_or_end (hinv.busy_shaped hbusy)
    exact ⟨t, hr.trans hnext⟩

/-- Settles O49: only the sequencer's turn could stop, and the shape of its position rules that out. -/
theorem noStopUnderInv : Obligations.NoStopUnderInv := by
  intro s hinv
  cases step_case s with
  | sequencer u turn move => exact move.next (show u.blk.Inv from turn.blk_eq ▸ hinv)
  | read _ _ _ hr | accept _ _ _ _ _ _ _ _ _ hr | refuse _ _ _ hr | write _ _ _ _ hr | sensor _ _ _ hr
  | tick _ _ _ hr | reset _ _ hr => exact ⟨_, hr⟩

end Sys2Proof.Machine
end

section
/-! Noninterference (10_state.md rules R35 and R39, 43_result_decoder.md rule R174): every operation of the machine
takes states that agree but for `CKSUM`, `RES_STALE`, `REJECT` and the host's read data to states that agree so. -/

namespace Sys2Proof.Machine

/-! ## Agreement -/

/-- The block with other informational elements. -/
def Block.informed (b : Block) (cksum : Byte) (resStale reject : Bool) : Block :=
  { b with cksum := cksum, resStale := resStale, reject := reject }

theorem Block.agrees_iff {b c : Block} : b.agrees c ↔ ∃ cksum resStale reject, c = b.informed cksum resStale reject :=
  ⟨fun h => ⟨_, _, _, h.symm⟩, fun ⟨_, _, _, h⟩ => h ▸ rfl⟩

theorem Env.agrees_iff {d e : Env} : d.agrees e ↔ ∃ rdata, e = { d with rdata := rdata } :=
  ⟨fun h => ⟨_, h.symm⟩, fun ⟨_, h⟩ => h ▸ rfl⟩

/-- Two states agree in the block and in the environment. -/
def State.agrees (s u : State) : Prop := s.blk.agrees u.blk ∧ s.env.agrees u.env

/-- Two outcomes agree: next states that do, or the same fault. -/
inductive ResultsAgree : Result → Result → Prop where
  | next {t v : State} (h : t.agrees v) : ResultsAgree (.next t) (.next v)
  | fault : ResultsAgree (.fault .sampleWhileDriven) (.fault .sampleWhileDriven)

theorem ResultsAgree.next_or_fault {r q : Result} (h : ResultsAgree r q) :
    (∃ t v, r = .next t ∧ q = .next v ∧ t.blk.agrees v.blk ∧ t.env.agrees v.env) ∨
    (r = .fault .sampleWhileDriven ∧ q = .fault .sampleWhileDriven) := by
  cases h with
  | next h => exact .inl ⟨_, _, rfl, rfl, h⟩
  | fault => exact .inr ⟨rfl, rfl⟩

/-! ## The block's operations -/

namespace Block.agrees

variable {b c : Block}

theorem step_eq (h : b.agrees c) : c.step = b.step := by
  obtain ⟨_, _, _, rfl⟩ := agrees_iff.mp h
  rfl

theorem busy_eq (h : b.agrees c) : c.busy = b.busy := by
  obtain ⟨_, _, _, rfl⟩ := agrees_iff.mp h
  rfl

theorem moveTo (h : b.agrees c) (todo : List Micro) : (b.moveTo todo).agrees (c.moveTo todo) := by
  obtain ⟨_, _, _, rfl⟩ := agrees_iff.mp h
  rfl

theorem fail (h : b.agrees c) (kind : ErrKind) (site : BitVec 3) : (b.fail kind site).agrees (c.fail kind site) := by
  obtain ⟨_, _, _, rfl⟩ := agrees_iff.mp h
  rfl

theorem apply (h : b.agrees c) (u : Update) : (b.apply u).agrees (c.apply u) := by
  obtain ⟨_, _, _, rfl⟩ := agrees_iff.mp h
  cases u <;> rfl

theorem drive (h : b.agrees c) (e : PinEvent) : (b.drive e).agrees (c.drive e) := by
  obtain ⟨_, _, _, rfl⟩ := agrees_iff.mp h
  cases e <;> rfl

theorem granted (h : b.agrees c) (w : Wait) : (b.granted w).agrees (c.granted w) := by
  obtain ⟨_, _, _, rfl⟩ := agrees_iff.mp h
  cases w <;> rfl

theorem accept (h : b.agrees c) (word : Half) (body : Position) (first : SeqState) :
    (b.accept word body first).agrees (c.accept word body first) := by
  obtain ⟨_, _, _, rfl⟩ := agrees_iff.mp h
  rfl

theorem writeCtrl (h : b.agrees c) (v : Word) : (b.writeCtrl v).agrees (c.writeCtrl v) := by
  unfold Block.writeCtrl
  rw [h.busy_eq]
  obtain ⟨_, _, _, rfl⟩ := agrees_iff.mp h
  split <;> rfl

/-- The assignments before an event keep the agreement. -/
theorem lead : ∀ (todo : List Micro) {b c : Block}, b.agrees c → (b.lead todo).agrees (c.lead todo)
  | [], _, _, h => h.moveTo []
  | .event e :: rest, _, _, h => h.moveTo (.event e :: rest)
  | .update u :: rest, _, _, h | .result u :: rest, _, _, h => lead rest (h.apply u)
  | .raise kind site :: _, _, _, h => h.fail kind site

/-- The assignments that belong to an event keep the agreement. -/
theorem trail : ∀ (todo : List Micro) {b c : Block}, b.agrees c → (b.trail todo).agrees (c.trail todo)
  | [], _, _, h => h.moveTo []
  | .event e :: rest, _, _, h => h.moveTo (.event e :: rest)
  | .result u :: rest, _, _, h => trail rest (h.apply u)
  | .raise kind site :: _, _, _, h => h.fail kind site
  | .update u :: rest, _, _, h => by
    rw [trail_update, trail_update]
    split
    · exact h.moveTo _
    · exact lead _ h

end Block.agrees

/-! ## The sequencer -/

namespace State.agrees

variable {s u : State}

theorem withBlk (h : s.agrees u) {b c : Block} (hb : b.agrees c) :
    State.agrees { s with blk := b } { u with blk := c } := ⟨hb, h.2⟩

theorem sensorPull_eq (h : s.agrees u) : u.env.sensorPull = s.env.sensorPull := by
  obtain ⟨_, henv⟩ := Env.agrees_iff.mp h.2
  rw [henv]

theorem now_eq (h : s.agrees u) : u.env.now = s.env.now := by
  obtain ⟨_, henv⟩ := Env.agrees_iff.mp h.2
  rw [henv]

theorem script_eq (h : s.agrees u) : u.env.script = s.env.script := by
  obtain ⟨_, henv⟩ := Env.agrees_iff.mp h.2
  rw [henv]

/-- The step that performs an event keeps the agreement. -/
theorem performed (h : s.agrees u) {b c : Block} (hb : b.agrees c) (ev : WireEvent) (todo : List Micro) :
    ResultsAgree (s.performed b ev todo) (u.performed c ev todo) := by
  obtain ⟨_, henv⟩ := Env.agrees_iff.mp h.2
  refine .next ⟨hb.trail todo, ?_⟩
  rw [henv]
  rfl

/-- A sample sees the same level in both states, and stops both or none (R124). -/
theorem sampled (h : s.agrees u) {f g : Bool → Result} (hfg : ∀ level, ResultsAgree (f level) (g level)) :
    ResultsAgree (s.sampled f) (u.sampled g) := by
  have hdir : u.blk.dataDir = s.blk.dataDir := by
    obtain ⟨_, _, _, hblk⟩ := Block.agrees_iff.mp h.1
    rw [hblk]
    rfl
  cases hin : s.blk.dataDir with
  | inp =>
    rw [sampled_inp s f hin, sampled_inp u g (hdir.trans hin), h.sensorPull_eq]
    exact hfg _
  | out =>
    rw [sampled_out s f hin, sampled_out u g (hdir.trans hin)]
    exact .fault

/-- A wire event does the same in both states. -/
theorem perform (h : s.agrees u) (rest : List Micro) (e : SeqEvent) :
    ResultsAgree (s.perform rest e) (u.perform rest e) := by
  have hnow := h.now_eq
  obtain ⟨cksum, resStale, reject, hblk⟩ := Block.agrees_iff.mp h.1
  have hbound (w : Wait) : w.bound u.blk = w.bound s.blk := by rw [hblk]; cases w <;> rfl
  have ht0 : u.blk.t0 = s.blk.t0 := by rw [hblk]; rfl
  cases e with
  | pin e => exact h.performed (h.1.drive e) _ _
  | sampleBit =>
    simp only [State.perform]
    refine h.sampled fun level => h.performed ?_ _ _
    rw [hblk]
    rfl
  | latchTime =>
    simp only [State.perform, hnow]
    refine h.performed ?_ _ _
    rw [hblk]
    rfl
  | poll w =>
    simp only [State.perform]
    refine h.sampled fun level => ?_
    cases level
    · exact h.performed (h.1.granted w) _ _
    · exact h.performed h.1 _ _
  | check w =>
    simp only [State.perform, hnow, hbound, ht0]
    split <;> exact h.performed h.1 _ _
  | settle =>
    simp only [State.perform, hnow, ht0]
    split <;> exact h.performed h.1 _ _
  | command byte => exact h.performed (h.1.drive _) _ _

/-- A step of the sequencer does the same in both states. -/
theorem advance (h : s.agrees u) : ResultsAgree (advance s) (advance u) := by
  have hlead := Block.agrees.lead s.blk.step.todo h.1
  unfold Machine.advance
  rw [h.1.step_eq, hlead.step_eq]
  split
  · exact (h.withBlk hlead).perform _ _
  · exact .next (h.withBlk hlead)

/-- A wire command begins the same transaction in both states. -/
theorem exec_wire (h : s.agrees u) {i : Instr} (hwire : i.format = .wire) : ResultsAgree (exec i s) (exec i u) := by
  have htransaction : transactionOf i u.blk = transactionOf i s.blk := by
    obtain ⟨_, _, _, hblk⟩ := Block.agrees_iff.mp h.1
    rw [hblk]
    rfl
  rw [Machine.exec_wire hwire, Machine.exec_wire hwire, htransaction]
  unfold beginTransaction
  rw [h.1.step_eq]
  exact (h.withBlk (h.1.moveTo _)).advance

/-- The sequencer makes the same move in both states. -/
theorem sequencerMove (h : s.agrees u) {r q : Result} (hs : SequencerMove s r) (hu : SequencerMove u q) :
    ResultsAgree r q := by
  have hbusy := h.1.busy_eq
  have hlead : (s.blk.lead s.blk.step.todo).agrees (u.blk.lead u.blk.step.todo) := by
    rw [h.1.step_eq]
    exact Block.agrees.lead _ h.1
  have htodo := congrArg Position.todo hlead.step_eq
  cases hs with
  | rests hidle hr =>
    cases hu with
    | rests _ hq => exact hr ▸ hq ▸ .next h
    | calls _ _ _ hrun | advances hrun => cases hidle.symm.trans (hbusy.symm.trans hrun)
  | calls byte i todo hrun hcall hdec hr =>
    cases hu with
    | rests hidle => cases hidle.symm.trans (hbusy.trans hrun)
    | advances _ hnone => exact absurd hdec (hnone _ _ _ (htodo.trans hcall))
    | calls byte' i' todo' _ hcall' hdec' hq =>
      cases hcall'.symm.trans (htodo.trans hcall)
      cases hdec'.symm.trans hdec
      rw [hr, hq]
      exact (h.withBlk (hlead.moveTo todo)).exec_wire (decodeWire_format hdec)
  | advances hrun hnone hr =>
    cases hu with
    | rests hidle => cases hidle.symm.trans (hbusy.trans hrun)
    | calls _ _ _ _ hcall hdec => exact absurd hdec (hnone _ _ _ (htodo.symm.trans hcall))
    | advances _ _ hq =>
      rw [hr, hq]
      exact h.advance

/-! ## The host and the environment -/

theorem movedOn (h : s.agrees u) (rest : List Act) : (s.movedOn rest).agrees (u.movedOn rest) := by
  obtain ⟨_, henv⟩ := Env.agrees_iff.mp h.2
  refine ⟨h.1, ?_⟩
  simp only [State.movedOn, henv]
  rfl

theorem unscripted (h : s.agrees u) : s.unscripted.agrees u.unscripted := by
  obtain ⟨_, henv⟩ := Env.agrees_iff.mp h.2
  refine ⟨h.1, ?_⟩
  simp only [State.unscripted, henv]
  rfl

theorem sensor (h : s.agrees u) (pull : Bool) :
    State.agrees { s with env := { s.env with sensorPull := pull } }
      { u with env := { u.env with sensorPull := pull } } := by
  obtain ⟨_, henv⟩ := Env.agrees_iff.mp h.2
  refine ⟨h.1, ?_⟩
  rw [henv]
  rfl

theorem withNow (h : s.agrees u) (now : Time) :
    State.agrees { s with env := { s.env with now := now } } { u with env := { u.env with now := now } } := by
  obtain ⟨_, henv⟩ := Env.agrees_iff.mp h.2
  refine ⟨h.1, ?_⟩
  rw [henv]
  rfl

theorem refuseWrite (h : s.agrees u) : s.refuseWrite.agrees u.refuseWrite := by
  obtain ⟨_, _, _, hblk⟩ := Block.agrees_iff.mp h.1
  refine ⟨?_, h.2⟩
  simp only [State.refuseWrite, hblk]
  rfl

/-- A host operation is accepted in both states or refused in both. -/
theorem exec_host (h : s.agrees u) {i : Instr} (hhost : i.format = .host) : ResultsAgree (exec i s) (exec i u) := by
  obtain ⟨first, body, -, hexec⟩ := Machine.exec_host hhost
  have hready : u.blk.ready = s.blk.ready := by
    obtain ⟨_, _, _, hblk⟩ := Block.agrees_iff.mp h.1
    rw [hblk]
    rfl
  rw [hexec, hexec]
  unfold issue
  rw [h.1.busy_eq, hready]
  split
  · exact .next h.refuseWrite
  · exact .next (h.withBlk (h.1.accept _ _ _))

/-- A read differs in its data only: what it reads of the block are registers, and a contended level uses up the same
free value in both states. -/
theorem hostRead (h : s.agrees u) (reg : Nat) : (hostRead reg s).agrees (hostRead reg u) := by
  obtain ⟨_, henv⟩ := Env.agrees_iff.mp h.2
  obtain ⟨_, _, _, hblk⟩ := Block.agrees_iff.mp h.1
  have hcontends : u.readsContention reg = s.readsContention reg := by
    simp only [State.readsContention, henv, hblk]
    rfl
  refine ⟨h.1, ?_⟩
  simp only [Machine.hostRead, hcontends, henv]
  rfl

theorem writeOperand (h : s.agrees u) {b c : Block} (hb : b.agrees c) :
    (s.writeOperand b).agrees (u.writeOperand c) := by
  unfold State.writeOperand
  rw [h.1.busy_eq]
  split
  · exact h.refuseWrite
  · exact h.withBlk hb

theorem hostWrite (h : s.agrees u) (reg : Nat) (v : Word) : (hostWrite reg v s).agrees (hostWrite reg v u) := by
  obtain ⟨_, _, _, hblk⟩ := Block.agrees_iff.mp h.1
  unfold Machine.hostWrite
  split
  case h_1 => exact h.withBlk (h.1.writeCtrl v)
  case h_6 => exact h.refuseWrite
  case h_2 | h_3 | h_4 | h_5 => exact h.writeOperand (hblk ▸ rfl)

/-- The turn of the sequencer, scripted or not, finds states that agree. -/
theorem sequencerTurn (h : s.agrees u) {s' : State} (turn : SequencerTurn s s') :
    ∃ u', SequencerTurn u u' ∧ s'.agrees u' := by
  cases turn with
  | scripted rest hscript => exact ⟨_, .scripted rest (h.script_eq.trans hscript), h.movedOn rest⟩
  | unscripted hscript => exact ⟨_, .unscripted (h.script_eq.trans hscript), (h.movedOn []).unscripted⟩

/-- A write to `CMD` is the same operation, or illegal, in both states. -/
theorem step_cmd (h : s.agrees u) {v : Word} {rest : List Act} (hscript : s.env.script = .host (.write 0 v) :: rest) :
    ResultsAgree (step s) (step u) := by
  have hscript' := h.script_eq.trans hscript
  rw [Machine.step_cmd s v rest hscript, Machine.step_cmd u v rest hscript', pop_eq_movedOn hscript,
    pop_eq_movedOn hscript']
  cases hdec : decodeHost (v.setWidth 16) with
  | instr i => exact (h.movedOn rest).exec_host (decodeHost_format hdec)
  | rejected why => exact .next (h.movedOn rest).refuseWrite

/-- On the sequencer's turn, scripted or not, the step does the same in both states. -/
theorem step_sequencer (h : s.agrees u) {s' : State} (turn : SequencerTurn s s') :
    ResultsAgree (step s) (step u) := by
  obtain ⟨u', turn', h'⟩ := h.sequencerTurn turn
  exact h'.sequencerMove turn.move turn'.move

/-- A step of any agent does the same in both states. -/
theorem step (h : s.agrees u) : ResultsAgree (step s) (step u) := by
  have hpop (a : Act) (rest : List Act) (hscript : s.env.script = a :: rest) : s.pop.agrees u.pop := by
    rw [pop_eq_movedOn hscript, pop_eq_movedOn (h.script_eq.trans hscript)]
    exact h.movedOn rest
  match hscript : s.env.script with
  | [] => exact h.step_sequencer (.unscripted hscript)
  | .seq :: rest => exact h.step_sequencer (.scripted rest hscript)
  | .host (.write 0 v) :: rest => exact h.step_cmd hscript
  | .host (.read reg) :: rest =>
    rw [step_read s reg rest hscript, step_read u reg rest (h.script_eq.trans hscript)]
    exact .next ((hpop _ rest hscript).hostRead reg)
  | .host (.write (reg + 1) v) :: rest =>
    rw [step_write s (reg + 1) v rest (by omega) hscript,
      step_write u (reg + 1) v rest (by omega) (h.script_eq.trans hscript)]
    exact .next ((hpop _ rest hscript).hostWrite (reg + 1) v)
  | .sensor pull :: rest =>
    rw [step_sensor s pull rest hscript, step_sensor u pull rest (h.script_eq.trans hscript)]
    exact .next ((hpop _ rest hscript).sensor pull)
  | .tick n :: rest =>
    rw [step_tick s n rest hscript, step_tick u n rest (h.script_eq.trans hscript), h.now_eq]
    exact .next ((hpop _ rest hscript).withNow (s.env.now + n))
  | .reset :: rest =>
    rw [step_reset s rest hscript, step_reset u rest (h.script_eq.trans hscript)]
    exact .next ((hpop _ rest hscript).withBlk rfl)

end State.agrees

/-- Settles O57: no operation reads the three elements, so each takes agreeing states to agreeing states. -/
theorem informationalStateNeverFlows : Obligations.InformationalStateNeverFlows := by
  intro s u hblk henv
  exact (State.agrees.step (s := s) (u := u) ⟨hblk, henv⟩).next_or_fault

end Sys2Proof.Machine
end

section
/-! Legal command words (30_encoding.md rules R94, R100 and R101): a word that decodes is the encoding of its
instruction, and the words that decode are those that match a row; with these, when a write to `CMD` is accepted (R41). -/

namespace Sys2Proof

/-! ## The fields of a host word -/

/-- Which field each bit of a host word shows (R94). -/
theorem getLsbD_hostFields (opc : BitVec 4) (face tv val : Bool) (bit : BitVec 3) (res : Bool) (i : Nat) :
    (hostFields opc face tv val bit res).getLsbD i =
      if i < 5 then false else if i = 5 then res else if i < 9 then bit.getLsbD (i - 6)
      else if i = 9 then val else if i = 10 then tv else if i = 11 then face else opc.getLsbD (i - 12) := by
  simp only [hostFields, BitVec.getLsbD_append, BitVec.getLsbD_ofBool]
  split_ifs <;> grind

@[simp] theorem opcOf_hostFields (opc : BitVec 4) (face tv val : Bool) (bit : BitVec 3) (res : Bool) :
    opcOf (hostFields opc face tv val bit res) = opc := by
  apply BitVec.eq_of_getLsbD_eq
  intro i hi
  rw [opcOf, BitVec.getLsbD_extractLsb', getLsbD_hostFields, decide_eq_true hi, Bool.true_and]
  iterate 6 rw [if_neg (by omega)]
  congr 1
  omega

/-- A bit outside `OPC` and `free` is 0 in a word whose unused bits are 0. -/
theorem getLsbD_of_unused {w free : Half} (hzero : w &&& ~~~(0xF000#16 ||| free) = 0) {i : Nat} (hi : i < 12) :
    w.getLsbD i = (w.getLsbD i && free.getLsbD i) := by
  have hbit : (w &&& ~~~(0xF000#16 ||| free)).getLsbD i = false := by rw [hzero]; simp
  have hopc : (0xF000#16).getLsbD i = false := by interval_cases i <;> rfl
  have hi16 : i < 16 := by omega
  rw [BitVec.getLsbD_and, BitVec.getLsbD_not, BitVec.getLsbD_or, hopc] at hbit
  simp only [hi16, decide_true] at hbit
  revert hbit
  cases w.getLsbD i <;> cases free.getLsbD i <;> simp

/-- A word whose bits outside `OPC` and `free` are 0 is put together from `OPC` and its fields inside `free` (R94). -/
theorem hostFields_of_unused {w free : Half} (hzero : w &&& ~~~(0xF000#16 ||| free) = 0)
    (hlow : free.extractLsb' 0 5 = 0) :
    hostFields (opcOf w) (faceOf w && free.getLsbD 11) (tvOf w && free.getLsbD 10) (valOf w && free.getLsbD 9)
      (bitOf w &&& free.extractLsb' 6 3) (resOf w && free.getLsbD 5) = w := by
  apply BitVec.eq_of_getLsbD_eq
  intro i hi
  have hunused := fun h => getLsbD_of_unused (i := i) hzero h
  rw [getLsbD_hostFields]
  split_ifs with h5 h5 h9 h9 h10 h11
  · have hfree : (free.extractLsb' 0 5).getLsbD i = false := by rw [hlow]; simp
    rw [BitVec.getLsbD_extractLsb', Nat.zero_add, decide_eq_true h5, Bool.true_and] at hfree
    rw [hunused (by omega), hfree, Bool.and_false]
  · subst h5
    exact (hunused (by omega)).symm
  · have hi3 : i - 6 < 3 := by omega
    have hi6 : 6 + (i - 6) = i := by omega
    rw [BitVec.getLsbD_and, bitOf, BitVec.getLsbD_extractLsb', BitVec.getLsbD_extractLsb', hi6, decide_eq_true hi3,
      Bool.true_and, Bool.true_and]
    exact (hunused (by omega)).symm
  · subst h9
    exact (hunused (by omega)).symm
  · subst h10
    exact (hunused (by omega)).symm
  · subst h11
    exact (hunused (by omega)).symm
  · have hi4 : i - 12 < 4 := by omega
    have hi12 : 12 + (i - 12) = i := by omega
    rw [opcOf, BitVec.getLsbD_extractLsb', hi12, decide_eq_true hi4, Bool.true_and]

/-! ## Words that decode -/

/-- A word that decodes is the encoding of its instruction (R94, R100). -/
theorem encode_of_decodeHost {w : Half} {i : Instr} (h : decodeHost w = .instr i) : encode i = w := by
  unfold decodeHost ifUnusedZero at h
  split at h
  case h_13 => cases h
  all_goals
    rename_i hopc
    have hopc := congrArg (BitVec.ofNat 4) hopc
    rw [BitVec.ofNat_toNat, BitVec.setWidth_eq] at hopc
    split at h
    case isFalse => cases h
    rename_i hzero
    have hw := hostFields_of_unused hzero (by decide)
    have hbits : bitOf w &&& 7#3 = bitOf w := BitVec.and_allOnes
    cases h
    simpa [hopc, hbits, encode] using hw

/-- The word of a host operation matches its row (R100). -/
theorem encode_matches_row {i : Instr} (h : i.format = .host) :
    (rowMatch i, rowMask i) ∈ hostRows ∧ encode i &&& rowMask i = rowMatch i := by
  cases i with
  | init => exact ⟨by decide, Laws.TableRow.init.1⟩
  | softReset => exact ⟨by decide, Laws.TableRow.softReset.1⟩
  | getStatus => exact ⟨by decide, Laws.TableRow.getStatus.1⟩
  | setStatusBit bit val => exact ⟨by simp [hostRows, rowMatch, rowMask], (Laws.TableRow.setStatusBit bit val).1⟩
  | setLowRes => exact ⟨by decide, Laws.TableRow.setLowRes.1⟩
  | setHighRes => exact ⟨by decide, Laws.TableRow.setHighRes.1⟩
  | setHeater val => exact ⟨by simp [hostRows, rowMatch, rowMask], (Laws.TableRow.setHeater val).1⟩
  | setOtpReload val => exact ⟨by simp [hostRows, rowMatch, rowMask], (Laws.TableRow.setOtpReload val).1⟩
  | readTemp face => exact ⟨by simp [hostRows, rowMatch, rowMask], (Laws.TableRow.readTemp face).1⟩
  | readHumid face tv => exact ⟨by simp [hostRows, rowMatch, rowMask], (Laws.TableRow.readHumid face tv).1⟩
  | calTemp res => exact ⟨by simp [hostRows, rowMatch, rowMask], (Laws.TableRow.calTemp res).1⟩
  | calHumid res => exact ⟨by simp [hostRows, rowMatch, rowMask], (Laws.TableRow.calHumid res).1⟩
  | wMeasureTemp | wMeasureRh | wReadStatus | wWriteStatus | wSoftReset => cases h

/-- A row's mask covers `OPC`, and its match column has nothing but `OPC` (R94, R100). -/
theorem hostRows_columns : ∀ r ∈ hostRows, r.2.extractLsb' 12 4 = 0xF ∧ r.1 &&& ~~~0xF000 = 0 := by
  simp [hostRows]

/-- A word that matches a row has the row's opcode, and its unused bits are 0 (R94, R100). -/
theorem fields_of_row {w : Half} {r : Half × Half} (hr : r ∈ hostRows) (h : w &&& r.2 = r.1) :
    opcOf w = opcOf r.1 ∧ w &&& ~~~(0xF000#16 ||| ~~~r.2) = 0 := by
  obtain ⟨hmask, hmatch⟩ := hostRows_columns _ hr
  constructor
  · have hall : w.extractLsb' 12 4 &&& 0xF = w.extractLsb' 12 4 := BitVec.and_allOnes
    rw [opcOf, opcOf, ← h, BitVec.extractLsb'_and, hmask, hall]
  · rw [BitVec.not_or, BitVec.not_not, BitVec.and_comm (~~~_), ← BitVec.and_assoc, h]
    exact hmatch

/-- A word that matches a row decodes (R100). -/
theorem decodeHost_of_row {w : Half} {r : Half × Half} (hr : r ∈ hostRows) (h : w &&& r.2 = r.1) :
    ∃ i, decodeHost w = .instr i := by
  obtain ⟨hopc, hzero⟩ := fields_of_row hr h
  unfold decodeHost
  rw [hopc]
  simp only [hostRows, List.mem_cons, List.not_mem_nil, or_false] at hr
  rcases hr with rfl | rfl | rfl | rfl | rfl | rfl | rfl | rfl | rfl | rfl | rfl | rfl <;> exact ⟨_, if_pos hzero⟩

/-- The legal words are those that match a row (R100). -/
theorem decodeHost_iff_row (w : Half) : (∃ i, decodeHost w = .instr i) ↔ ∃ r ∈ hostRows, w &&& r.2 = r.1 := by
  constructor
  · rintro ⟨i, hdec⟩
    obtain ⟨hmem, hrow⟩ := encode_matches_row (Machine.decodeHost_format hdec)
    exact ⟨_, hmem, encode_of_decodeHost hdec ▸ hrow⟩
  · rintro ⟨r, hr, hrow⟩
    exact decodeHost_of_row hr hrow

namespace Machine

/-- The operations that need no constructed session are those of three opcodes (R41, R101). -/
theorem needsSession_iff {i : Instr} (h : i.format = .host) :
    needsSession i = false ↔ opcOf (encode i) = 0x1 ∨ opcOf (encode i) = 0xB ∨ opcOf (encode i) = 0xC := by
  cases i with
  | wMeasureTemp | wMeasureRh | wReadStatus | wWriteStatus | wSoftReset => cases h
  | _ => simp [needsSession, encode]

/-! ## Writes to `CMD` -/

/-- The condition of R41 on a write of `v` to `CMD`. -/
def acceptable (b : Block) (v : Word) : Prop :=
  b.busy = false ∧ (∃ r ∈ hostRows, v.extractLsb' 0 16 &&& r.2 = r.1) ∧
    (b.ready = true ∨ v.extractLsb' 12 4 = 0x1 ∨ v.extractLsb' 12 4 = 0xB ∨ v.extractLsb' 12 4 = 0xC)

theorem opcOf_low (v : Word) : opcOf (v.extractLsb' 0 16) = v.extractLsb' 12 4 := by
  rw [opcOf, BitVec.extractLsb'_extractLsb'_of_le (by omega)]

/-- A write to `CMD` under R41's condition accepts the word. -/
theorem step_acceptable {s : State} {v : Word} {rest : List Act} (h : s.env.script = .host (.write 0 v) :: rest)
    (hacc : acceptable s.blk v) :
    ∃ t, step s = .next t ∧ t.blk.busy = true ∧ t.blk.cmdl = v.extractLsb' 0 16 ∧ t.blk.reject = s.blk.reject := by
  obtain ⟨hidle, hrow, hready⟩ := hacc
  obtain ⟨i, hdec⟩ := (decodeHost_iff_row _).mpr hrow
  obtain ⟨first, body, -, hexec⟩ := exec_host (decodeHost_format hdec)
  have hstep : step s = exec i (s.movedOn rest) :=
    step_hostWord h (by rwa [BitVec.setWidth_eq_extractLsb' (by omega)])
  have hword := encode_of_decodeHost hdec
  rw [← opcOf_low, ← hword, ← needsSession_iff (decodeHost_format hdec)] at hready
  rcases issue_cases i (needsSession i) first body (s.movedOn rest) with ⟨hissue, -⟩ | ⟨-, hbusy | ⟨hneeds, hunready⟩⟩
  · exact ⟨_, hstep.trans ((hexec _).trans hissue), rfl, hword, rfl⟩
  · cases hidle.symm.trans hbusy
  · rcases hready with hready | hfree
    · cases hready.symm.trans hunready
    · cases hfree.symm.trans hneeds

/-- A write to `CMD` against R41's condition is refused. -/
theorem step_unacceptable {s : State} {v : Word} {rest : List Act} (h : s.env.script = .host (.write 0 v) :: rest)
    (hacc : ¬acceptable s.blk v) : step s = .next (s.movedOn rest).refuseWrite := by
  cases hdec : decodeHost (v.extractLsb' 0 16) with
  | rejected why =>
    rw [← BitVec.setWidth_eq_extractLsb' (by omega)] at hdec
    rw [step_cmd s v rest h, hdec, pop_eq_movedOn h]
  | instr i =>
    obtain ⟨first, body, -, hexec⟩ := exec_host (decodeHost_format hdec)
    have hstep : step s = exec i (s.movedOn rest) :=
      step_hostWord h (by rwa [BitVec.setWidth_eq_extractLsb' (by omega)])
    rcases issue_cases i (needsSession i) first body (s.movedOn rest) with ⟨-, hidle, hneeds⟩ | ⟨hissue, -⟩
    · refine absurd ⟨hidle, (decodeHost_iff_row _).mp ⟨i, hdec⟩, ?_⟩ hacc
      rw [← opcOf_low, ← encode_of_decodeHost hdec, ← needsSession_iff (decodeHost_format hdec)]
      cases hsession : needsSession i
      · exact .inr rfl
      · exact .inl (hneeds hsession)
    · exact hstep.trans ((hexec _).trans hissue)

/-- Settles O6: a legal word is the encoding of its instruction, and its opcode says whether it needs a session. -/
theorem commandAcceptedExactlyWhen : Obligations.CommandAcceptedExactlyWhen := by
  refine ⟨fun s v rest h => ?write, fun s rest h => ?read, rfl⟩
  case write =>
    by_cases hacc : acceptable s.blk v
    · obtain ⟨t, hstep, heffect⟩ := step_acceptable h hacc
      exact ⟨t, hstep, fun _ => heffect, fun hnot => absurd hacc hnot⟩
    · exact ⟨_, step_unacceptable h hacc, fun hyes => absurd hyes hacc, fun _ => rfl⟩
  case read => exact ⟨_, step_read s 0 rest h, rfl⟩

end Machine

end Sys2Proof
end

section
/-! Frames (10_state.md rules R21, R35 and R58 item 7, 70_reset_and_hazards.md rules R323 and R338): what the sequencer
never writes, what the host never writes, and what changes `REJECT`. -/

namespace Sys2Proof.Machine

/-! ## What every part of a sequencer's step keeps -/

/-- A property of blocks that no assignment and no wire event of the sequencer can end. -/
structure KeptBySequencer (P : Block → Prop) : Prop where
  apply : ∀ b u, P b → P (b.apply u)
  fail : ∀ b kind site, P b → P (b.fail kind site)
  moveTo : ∀ b todo, P b → P (b.moveTo todo)
  drive : ∀ b e, P b → P (b.drive e)
  granted : ∀ b w, P b → P (b.granted w)
  received : ∀ (b : Block) acc, P b → P { b with acc := acc }
  latched : ∀ (b : Block) t0, P b → P { b with t0 := t0 }

variable {P : Block → Prop}

theorem KeptBySequencer.lead (h : KeptBySequencer P) {b : Block} (hb : P b) (todo : List Micro) : P (b.lead todo) :=
  lead_keeps h.apply h.fail h.moveTo todo b hb

theorem KeptBySequencer.performs (h : KeptBySequencer P) {s : State} {rest todo : List Micro} {e : SeqEvent}
    {b : Block} {ev : WireEvent} (hperforms : Performs s rest e b ev todo) (hs : P s.blk) : P b := by
  cases hperforms with
  | pin | command => exact h.drive _ _ hs
  | sampleBit => exact h.received _ _ hs
  | latchTime => exact h.latched _ _ hs
  | pollGranted => exact h.granted _ _ hs
  | pollSilent | checkPassed | checkRemains | settled | settling => exact hs

theorem KeptBySequencer.advance (h : KeptBySequencer P) {s t : State} (hs : P s.blk) (hstep : advance s = .next t) :
    P t.blk := by
  have hlead := h.lead hs s.blk.step.todo
  rcases advance_cases s with ⟨e, rest, -, hadv⟩ | ⟨-, hadv⟩
  · rcases perform_cases { s with blk := s.blk.lead s.blk.step.todo } rest e with
      ⟨b, ev, todo, hperforms, hnext⟩ | ⟨hfault, -⟩
    · cases hstep.symm.trans (hadv.trans hnext)
      exact trail_keeps h.apply h.fail h.moveTo todo b (h.performs hperforms hlead)
    · cases hstep.symm.trans (hadv.trans hfault)
  · cases hstep.symm.trans hadv
    exact hlead

/-- What the sequencer keeps, its turn keeps. -/
theorem SequencerMove.keeps {u t : State} (move : SequencerMove u (.next t)) (h : KeptBySequencer P) (hu : P u.blk) :
    P t.blk := by
  cases move with
  | rests _ hr =>
    cases hr
    exact hu
  | calls byte i todo _ _ hdec hr =>
    rw [exec_wire (decodeWire_format hdec)] at hr
    unfold beginTransaction at hr
    refine h.advance ?_ hr.symm
    exact h.moveTo _ _ (h.moveTo _ _ (h.lead hu _))
  | advances _ _ hr => exact h.advance hu hr.symm

/-- A step of the sequencer writes nothing of the environment but the event it performs. -/
theorem advance_env {s t : State} (hstep : advance s = .next t) : t.env = { s.env with event := t.env.event } := by
  rcases advance_cases s with ⟨e, rest, -, hadv⟩ | ⟨-, hadv⟩
  · rcases perform_cases { s with blk := s.blk.lead s.blk.step.todo } rest e with ⟨b, ev, todo, -, hnext⟩ | ⟨hfault, -⟩
    · cases hstep.symm.trans (hadv.trans hnext)
      rfl
    · cases hstep.symm.trans (hadv.trans hfault)
  · cases hstep.symm.trans hadv
    rfl

theorem SequencerMove.env_eq {u t : State} (move : SequencerMove u (.next t)) :
    t.env = { u.env with event := t.env.event } := by
  cases move with
  | rests _ hr =>
    cases hr
    rfl
  | calls byte i todo _ _ hdec hr =>
    rw [exec_wire (decodeWire_format hdec)] at hr
    unfold beginTransaction at hr
    have henv := advance_env hr.symm
    exact henv
  | advances _ _ hr => exact advance_env hr.symm

/-! ## What the sequencer never writes -/

/-- The elements the host writes: the command and its face, the control, timeout and operand registers, and `REJECT`. -/
structure Block.HostElements (b c : Block) : Prop where
  cmdl : c.cmdl = b.cmdl
  face : c.face = b.face
  irqEn : c.irqEn = b.irqEn
  reject : c.reject = b.reject
  ackTmo : c.ackTmo = b.ackTmo
  measTmo : c.measTmo = b.measTmo
  argTemp : c.argTemp = b.argTemp
  argRaw : c.argRaw = b.argRaw

theorem hostElements_kept (b : Block) : KeptBySequencer b.HostElements where
  apply _ u h := by cases u <;> exact { h with }
  fail _ _ _ h := { h with }
  moveTo _ _ h := { h with }
  drive _ e h := by cases e <;> exact { h with }
  granted _ w h := by cases w <;> exact { h with }
  received _ _ h := { h with }
  latched _ _ h := { h with }

theorem SequencerMove.hostElements {u t : State} (move : SequencerMove u (.next t)) : u.blk.HostElements t.blk :=
  move.keeps (hostElements_kept u.blk) ⟨rfl, rfl, rfl, rfl, rfl, rfl, rfl, rfl⟩

/-- Settles O52: no assignment and no wire event writes an element of the host, and a step's only trace in the
environment is its event. -/
theorem sequencerKeepsTheHostsRegisters : Obligations.SequencerKeepsTheHostsRegisters := by
  intro s t rest hscript hstep
  have move := (SequencerTurn.scripted rest hscript).move
  rw [hstep] at move
  obtain ⟨hcmdl, hface, hirqEn, hreject, hackTmo, hmeasTmo, hargTemp, hargRaw⟩ := move.hostElements
  have henv := move.env_eq
  exact ⟨hcmdl, hface, hirqEn, hreject, hackTmo, hmeasTmo, hargTemp, hargRaw, by rw [henv]; rfl, by rw [henv]; rfl,
    by rw [henv]; rfl, by rw [henv]; rfl⟩

/-! ## What the host never writes -/

/-- A write of a register other than `CMD` writes at most `CTRL`'s elements, the timeouts and the operands (R42 to
R53). -/
theorem hostWrite_frame (r : Nat) (v : Word) (s : State) :
    (hostWrite r v s).env = s.env ∧ ∃ done irqPend state irqEn reject ackTmo measTmo argTemp argRaw,
      (hostWrite r v s).blk = { s.blk with
        done := done, irqPend := irqPend, state := state, irqEn := irqEn, reject := reject
        ackTmo := ackTmo, measTmo := measTmo, argTemp := argTemp, argRaw := argRaw } := by
  rcases hostWrite_cases r v s with ⟨-, h⟩ | h | ⟨-, ackTmo, measTmo, argTemp, argRaw, h⟩
  · rw [h]
    rcases writeCtrl_cases s.blk v with hctrl | ⟨-, hctrl⟩
    all_goals
      rw [hctrl]
      exact ⟨rfl, _, _, _, _, _, _, _, _, _, rfl⟩
  · rw [h]
    exact ⟨rfl, _, _, _, _, _, _, _, _, _, rfl⟩
  · rw [h]
    exact ⟨rfl, _, _, _, _, _, _, _, _, _, rfl⟩

/-- Settles O51: acceptance and the register writes leave the pins alone, and only `perform` records an event. -/
theorem pinsMoveOnlyWhileBusy : Obligations.PinsMoveOnlyWhileBusy := by
  intro s t hstep hnoReset hquiet
  have hcase := step_case s
  rw [hstep] at hcase
  cases hcase with
  | sequencer u turn move =>
    have hidle : u.blk.busy = false := by
      rw [turn.blk_eq]
      refine hquiet.resolve_right ?_
      rintro ⟨a, rest, hscript, ha⟩
      rcases turn.script with hnil | ⟨rest', hseq⟩
      · cases hscript.symm.trans hnil
      · cases hscript.symm.trans hseq
        exact ha rfl
    cases move with
    | rests _ hr =>
      cases hr
      cases turn <;> exact ⟨rfl, rfl, rfl, rfl, rfl⟩
    | calls _ _ _ hbusy | advances hbusy => cases hidle.symm.trans hbusy
  | read _ _ _ hr | accept _ _ _ _ _ _ _ _ _ hr | refuse _ _ _ hr | sensor _ _ _ hr | tick _ _ _ hr =>
    cases hr
    exact ⟨rfl, rfl, rfl, rfl, rfl⟩
  | write r v rest _ hr =>
    cases hr
    obtain ⟨henv, _, _, _, _, _, _, _, _, _, hblk⟩ := hostWrite_frame r v (s.movedOn rest)
    rw [henv, hblk]
    exact ⟨rfl, rfl, rfl, rfl, rfl⟩
  | reset rest h => exact absurd h (hnoReset rest)

/-! ## CLOCK's direction and `REJECT` -/

theorem clkDir_out_kept : KeptBySequencer fun b => b.clkDir = .out where
  apply _ u h := by cases u <;> exact h
  fail _ _ _ h := h
  moveTo _ _ h := h
  drive _ e h := by
    cases e with
    | clk v => rfl
    | data | release => exact h
  granted _ w h := by cases w <;> exact h
  received _ _ h := h
  latched _ _ h := h

/-- Settles O50: no wire event makes CLOCK an input, and no other agent but `RESET` touches it. -/
theorem clockStaysDrivenUntilReset : Obligations.ClockStaysDrivenUntilReset := by
  intro s t hstep hnoReset hout
  have hcase := step_case s
  rw [hstep] at hcase
  cases hcase with
  | sequencer u turn move => exact move.keeps clkDir_out_kept (turn.blk_eq ▸ hout)
  | read _ _ _ hr | accept _ _ _ _ _ _ _ _ _ hr | refuse _ _ _ hr | sensor _ _ _ hr | tick _ _ _ hr =>
    cases hr
    exact hout
  | write r v rest _ hr =>
    cases hr
    obtain ⟨-, _, _, _, _, _, _, _, _, _, hblk⟩ := hostWrite_frame r v (s.movedOn rest)
    rw [hblk]
    exact hout
  | reset rest h => exact absurd h (hnoReset rest)

/-- A write of `CTRL` clears `REJECT` exactly when `CLR_REJECT` is set (R43). -/
theorem writeCtrl_reject (b : Block) (v : Word) : (b.writeCtrl v).reject = (b.reject && !v.getLsbD 1) := by
  rcases writeCtrl_cases b v with hctrl | ⟨-, hctrl⟩ <;> exact congrArg Block.reject hctrl

/-- A register write lowers `REJECT` only as `CLR_REJECT` (R43). -/
theorem hostWrite_clears_reject {r : Nat} {v : Word} {s : State} (hset : s.blk.reject = true)
    (hclear : (hostWrite r v s).blk.reject = false) : r = 2 ∧ v.getLsbD 1 = true := by
  rcases hostWrite_cases r v s with ⟨hr, h⟩ | h | ⟨-, _, _, _, _, h⟩
  · rw [h] at hclear
    have hbit := (writeCtrl_reject s.blk v).symm.trans hclear
    exact ⟨hr, by simpa [hset] using hbit⟩
  · rw [h] at hclear
    cases hclear
  · rw [h] at hclear
    cases hset.symm.trans hclear

/-- What a step can do to `REJECT`: keep it, or it is a host write, which clears it only as `CLR_REJECT`, or `RESET`. -/
theorem step_reject {s t : State} (hstep : step s = .next t) :
    t.blk.reject = s.blk.reject ∨ (∃ rest, s.env.script = .reset :: rest ∧ t.blk.reject = false) ∨
    ∃ r v rest, s.env.script = .host (.write r v) :: rest ∧
      (s.blk.reject = true → t.blk.reject = false → r = 2 ∧ v.getLsbD 1 = true) := by
  have hcase := step_case s
  rw [hstep] at hcase
  cases hcase with
  | sequencer u turn move => exact .inl (turn.blk_eq ▸ move.hostElements.reject)
  | read _ _ _ hr | accept _ _ _ _ _ _ _ _ _ hr | sensor _ _ _ hr | tick _ _ _ hr =>
    cases hr
    exact .inl rfl
  | refuse v rest h hr =>
    cases hr
    exact .inr (.inr ⟨0, v, rest, h, fun _ hclear => by cases hclear⟩)
  | write r v rest h hr =>
    cases hr
    exact .inr (.inr ⟨r, v, rest, h, fun hset hclear => hostWrite_clears_reject (s := s.movedOn rest) hset hclear⟩)
  | reset rest h hr =>
    cases hr
    exact .inr (.inl ⟨rest, h, rfl⟩)

/-- Settles O54: only register writes and `RESET` change `REJECT`, and of the writes only `CLR_REJECT` lowers it. -/
theorem rejectIsSticky : Obligations.RejectIsSticky := by
  intro s t hstep
  rcases step_reject hstep with heq | ⟨rest, h, hclear⟩ | ⟨r, v, rest, h, hwrite⟩
  · rw [heq]
    exact ⟨fun hset hclear => absurd hset (by simp [hclear]), fun hclear hset => absurd hset (by simp [hclear])⟩
  · exact ⟨fun _ _ => .inl ⟨rest, h⟩, fun _ hset => by cases hset.symm.trans hclear⟩
  · refine ⟨fun hset hclear => .inr ?_, fun _ _ => ⟨r, v, rest, h⟩⟩
    obtain ⟨rfl, hbit⟩ := hwrite hset hclear
    exact ⟨v, rest, h, hbit⟩

end Sys2Proof.Machine
end

section
/-! What changes `RESMODE` (10_state.md rule R38, 44_status_manager.md rules R190 and R199): the acceptance of `INIT`,
and the assignment that ends a status read, in the step R233 attaches it to. -/

namespace Sys2Proof.Machine

/-! ## Assignments and `RESMODE` -/

/-- `todo` has the assignment that ends a status read before its next event. -/
def refreshesBeforeEvent (todo : List Micro) : Prop :=
  ∃ pre post, todo = pre ++ .update .refreshMode :: post ∧ eventsIn pre = 0

/-- The cached mode is the one of the status byte. -/
def Block.modeFresh (b : Block) : Prop := b.resMode = b.status.getLsbD 0

theorem eventsIn_update (u : Update) (rest : List Micro) : eventsIn (.update u :: rest) = eventsIn rest := by
  simp [eventsIn]

theorem eventsIn_result (u : Update) (rest : List Micro) : eventsIn (.result u :: rest) = eventsIn rest := by
  simp [eventsIn]

theorem eventsIn_raise (kind : ErrKind) (site : BitVec 3) (rest : List Micro) :
    eventsIn (.raise kind site :: rest) = eventsIn rest := by
  simp [eventsIn]

theorem eventsIn_append (xs ys : List Micro) : eventsIn (xs ++ ys) = eventsIn xs + eventsIn ys :=
  List.countP_append ..

/-- A list in which no event is to come has none. -/
theorem eventsIn_of_not_hasEvent : ∀ {todo : List Micro}, hasEvent todo = false → eventsIn todo = 0
  | [], _ => rfl
  | .event _ :: _, h => by cases h
  | .update u :: rest, h => (eventsIn_update u rest).trans (eventsIn_of_not_hasEvent h)
  | .result u :: rest, h => (eventsIn_result u rest).trans (eventsIn_of_not_hasEvent h)
  | .raise kind site :: rest, h => (eventsIn_raise kind site rest).trans (eventsIn_of_not_hasEvent h)

/-- Only the end of a status read assigns `RESMODE`. -/
theorem apply_resMode {u : Update} (hu : u ≠ .refreshMode) (b : Block) : (b.apply u).resMode = b.resMode := by
  cases u with
  | refreshMode => exact absurd rfl hu
  | _ => rfl

/-- Up to the next call, or the end of the body, the assignments leave a fresh mode fresh (R190). -/
theorem lead_of_callNext : ∀ {todo : List Micro} {b : Block}, callNext todo = true → wellShaped b.shape todo = true →
    b.modeFresh → (b.lead todo).modeFresh ∧ callNext (b.lead todo).step.todo = true
  | [], _, hnext, _, hfresh => ⟨hfresh, hnext⟩
  | .event _ :: _, _, hnext, _, hfresh => ⟨hfresh, hnext⟩
  | .result _ :: _, _, hnext, _, _ | .raise _ _ :: _, _, hnext, _, _ => by cases hnext
  | .update u :: rest, b, hnext, hshaped, hfresh => by
    rw [lead_update]
    have hfresh' : (b.apply u).modeFresh := by
      cases u with
      | latchStatus => cases hshaped
      | refreshMode => rfl
      | _ => exact hfresh
    rcases wellShaped_apply b u rest hshaped with ⟨rfl, rfl⟩ | hrest
    · exact ⟨hfresh, rfl⟩
    · exact lead_of_callNext hnext hrest hfresh'

theorem refreshesBeforeEvent.cons {m : Micro} {rest : List Micro} (h : refreshesBeforeEvent rest)
    (hm : eventsIn [m] = 0) : refreshesBeforeEvent (m :: rest) := by
  obtain ⟨pre, post, rfl, hpre⟩ := h
  refine ⟨m :: pre, post, rfl, ?_⟩
  rw [← List.singleton_append, eventsIn_append, hm, hpre]

/-- The assignments before an event change `RESMODE` only by the end of a status read, after which the next event, if
any, begins a call. -/
theorem lead_resMode : ∀ {todo : List Micro} {b : Block}, wellShaped b.shape todo = true →
    (b.lead todo).resMode = b.resMode ∨
      (refreshesBeforeEvent todo ∧ (b.lead todo).modeFresh ∧ callNext (b.lead todo).step.todo = true)
  | [], _, h => by cases h
  | .event _ :: _, _, _ | .raise _ _ :: _, _, _ => .inl rfl
  | .result u :: rest, b, h => by
    have hu : u ≠ .refreshMode := by rintro rfl; simp [wellShaped] at h
    rw [lead_result, ← apply_resMode hu b]
    exact (lead_resMode (wellShaped_applyResult b u rest h)).imp_right fun ⟨hrefresh, hmode⟩ =>
      ⟨hrefresh.cons rfl, hmode⟩
  | .update u :: rest, b, h => by
    rw [lead_update]
    by_cases hu : u = .refreshMode
    · subst hu
      have hnext : callNext rest = true := by
        simp only [wellShaped, Bool.and_eq_true] at h
        exact h.1
      have hrest := (wellShaped_apply b .refreshMode rest h).resolve_left (by simp)
      exact .inr ⟨⟨[], rest, rfl, rfl⟩, lead_of_callNext hnext hrest rfl⟩
    · rw [← apply_resMode hu b]
      rcases wellShaped_apply b u rest h with ⟨rfl, rfl⟩ | hrest
      · exact .inl rfl
      · exact (lead_resMode hrest).imp_right fun ⟨hrefresh, hmode⟩ => ⟨hrefresh.cons rfl, hmode⟩

/-- The assignments that belong to an event change `RESMODE` only by the end of a status read, with no event left. -/
theorem trail_resMode : ∀ {todo : List Micro} {b : Block}, wellShaped b.shape todo = true →
    (b.trail todo).resMode = b.resMode ∨
      ((∃ pre post, todo = pre ++ .update .refreshMode :: post ∧ eventsIn pre = 0 ∧ eventsIn post = 0) ∧
        (b.trail todo).modeFresh)
  | [], _, h => by cases h
  | .event _ :: _, _, _ | .raise _ _ :: _, _, _ => .inl rfl
  | .result u :: rest, b, h => by
    have hu : u ≠ .refreshMode := by rintro rfl; simp [wellShaped] at h
    rw [trail_result, ← apply_resMode hu b]
    refine (trail_resMode (wellShaped_applyResult b u rest h)).imp_right ?_
    rintro ⟨⟨pre, post, rfl, hpre, hpost⟩, hmode⟩
    exact ⟨⟨.result u :: pre, post, rfl, (eventsIn_result u pre).trans hpre, hpost⟩, hmode⟩
  | .update u :: rest, b, h => by
    rw [trail_update]
    split
    case isTrue => exact .inl rfl
    case isFalse hevent =>
      have hnone : eventsIn (.update u :: rest) = 0 :=
        (eventsIn_update u rest).trans (eventsIn_of_not_hasEvent (by simpa using hevent))
      refine (lead_resMode h).imp_right ?_
      rintro ⟨⟨pre, post, heq, hpre⟩, hmode, -⟩
      rw [heq, eventsIn_append, eventsIn_update] at hnone
      exact ⟨⟨pre, post, heq, hpre, by omega⟩, hmode⟩

/-! ## The position after the leading assignments -/

/-- The event the sequencer performs next is the first one of its position. -/
theorem lead_todo_suffix : ∀ {todo : List Micro} {b : Block} {e : SeqEvent} {rest : List Micro},
    (b.lead todo).step.todo = .event e :: rest → ∃ pre, todo = pre ++ .event e :: rest ∧ eventsIn pre = 0
  | [], _, _, _, h | .raise _ _ :: _, _, _, _, h => by cases h
  | .event _ :: _, _, _, _, h => ⟨[], h, rfl⟩
  | .update u :: todo, b, e, rest, h => by
    obtain ⟨pre, rfl, hpre⟩ := lead_todo_suffix (b := b.apply u) h
    exact ⟨.update u :: pre, rfl, (eventsIn_update u pre).trans hpre⟩
  | .result u :: todo, b, e, rest, h => by
    obtain ⟨pre, rfl, hpre⟩ := lead_todo_suffix (b := b.apply u) h
    exact ⟨.result u :: pre, rfl, (eventsIn_result u pre).trans hpre⟩

/-! ## Wire events and `RESMODE` -/

/-- The mode and the status byte of two blocks are the same. -/
def Block.sameMode (b c : Block) : Prop := c.resMode = b.resMode ∧ c.status = b.status

theorem Block.modeFresh.of_sameMode {b c : Block} (hfresh : b.modeFresh) (hsame : b.sameMode c) : c.modeFresh := by
  obtain ⟨hmode, hstatus⟩ := hsame
  rw [Block.modeFresh, hmode, hstatus]
  exact hfresh

/-- A frame sent leaves the mode and the status byte alone: more of the frame follows its first event. -/
theorem Performs.command_sameMode {s : State} {rest todo : List Micro} {byte : Byte} {b : Block} {ev : WireEvent}
    (h : Performs s rest (.command byte) b ev todo) : s.blk.sameMode (b.trail todo) := by
  cases h with
  | command _ e es hframe =>
    obtain ⟨rfl, rfl⟩ := List.cons.inj hframe
    exact ⟨rfl, rfl⟩

/-- A wire event leaves the mode and the status byte alone but for the assignments that follow it in the position. -/
theorem Performs.sameMode {s : State} {rest todo : List Micro} {e : SeqEvent} {b : Block} {ev : WireEvent}
    (h : Performs s rest e b ev todo) :
    s.blk.sameMode (b.trail todo) ∨ (b.resMode = s.blk.resMode ∧ todo = rest) := by
  cases e with
  | command byte => exact .inl h.command_sameMode
  | pin e =>
    cases h
    cases e <;> exact .inr ⟨rfl, rfl⟩
  | sampleBit | latchTime =>
    cases h
    exact .inr ⟨rfl, rfl⟩
  | settle =>
    cases h with
    | settled => exact .inr ⟨rfl, rfl⟩
    | settling => exact .inl ⟨rfl, rfl⟩
  | poll w =>
    cases h with
    | pollSilent => exact .inl ⟨rfl, rfl⟩
    | pollGranted => cases w <;> exact .inr ⟨rfl, rfl⟩
  | check w =>
    cases h with
    | checkPassed => cases w <;> exact .inl ⟨rfl, rfl⟩
    | checkRemains => exact .inl ⟨rfl, rfl⟩

/-- The first step of a wire command leaves the mode and the status byte alone. -/
theorem exec_wire_sameMode {byte : Byte} {i : Instr} (hdec : decodeWire byte = .instr i) {s t : State}
    (h : exec i s = .next t) : s.blk.sameMode t.blk := by
  rcases decodeWire_instr hdec with ⟨-, rfl⟩ | ⟨-, rfl⟩ | ⟨-, rfl⟩ | ⟨-, rfl⟩ | ⟨-, rfl⟩ <;>
    cases h.symm.trans (beginTransaction_start .commandSent _ s) <;> exact ⟨rfl, rfl⟩

/-! ## The sequencer's turn and `RESMODE` -/

theorem refreshesBeforeEvent.carries {todo : List Micro} (h : refreshesBeforeEvent todo) :
    carries todo .refreshMode := by
  obtain ⟨pre, post, heq, hpre⟩ := h
  exact ⟨pre, post, heq, .inl hpre⟩

/-- A step of a running sequencer changes `RESMODE` only where its position carries the end of a status read. -/
theorem advance_resMode {s t : State} (hinv : s.Inv) (hbusy : s.blk.busy = true) (hstep : advance s = .next t)
    (hne : t.blk.resMode ≠ s.blk.resMode) : carries s.blk.step.todo .refreshMode ∧ t.blk.modeFresh := by
  have hrun := hinv.running hbusy
  have hlead := lead_resMode hrun.shaped
  rcases advance_cases s with ⟨e, rest, htodo, hadv⟩ | ⟨-, hadv⟩
  · rcases perform_cases { s with blk := s.blk.lead s.blk.step.todo } rest e with
      ⟨b, ev, todo, hperforms, hnext⟩ | ⟨hfault, -⟩
    · cases hstep.symm.trans (hadv.trans hnext)
      rcases hlead with hsame | ⟨hrefresh, hfresh, hcall⟩
      · rcases hperforms.sameMode with ⟨hmode, -⟩ | ⟨hmode, rfl⟩
        · exact absurd (hmode.trans hsame) hne
        · have hshaped := (hperforms.running (hrun.inv_lead.running_at htodo)).shaped
          rcases trail_resMode hshaped with htrail | ⟨⟨pre, post, heq, hpre, hpost⟩, hfresh⟩
          · exact absurd (htrail.trans (hmode.trans hsame)) hne
          · obtain ⟨before, hbefore, hnone⟩ := lead_todo_suffix htodo
            refine ⟨⟨before ++ .event e :: pre, post, ?_, .inr ⟨?_, hpost⟩⟩, hfresh⟩
            · rw [hbefore, heq, List.append_assoc, List.cons_append]
            · have hcount : eventsIn (.event e :: pre) = eventsIn pre + 1 := by simp [eventsIn]
              rw [eventsIn_append, hnone, hcount, hpre]
      · rw [htodo] at hcall
        cases e with
        | command byte => exact ⟨hrefresh.carries, hfresh.of_sameMode hperforms.command_sameMode⟩
        | _ => cases hcall
    · cases hstep.symm.trans (hadv.trans hfault)
  · cases hstep.symm.trans hadv
    rcases hlead with hsame | ⟨hrefresh, hfresh, -⟩
    · exact absurd hsame hne
    · exact ⟨hrefresh.carries, hfresh⟩

/-- The sequencer's turn changes `RESMODE` only so. -/
theorem SequencerMove.resMode {u t : State} (move : SequencerMove u (.next t)) (hinv : u.Inv)
    (hne : t.blk.resMode ≠ u.blk.resMode) :
    u.blk.busy = true ∧ carries u.blk.step.todo .refreshMode ∧ t.blk.modeFresh := by
  cases move with
  | rests _ hr =>
    cases hr
    exact absurd rfl hne
  | advances hbusy _ hr => exact ⟨hbusy, advance_resMode hinv hbusy hr.symm hne⟩
  | calls byte i todo hbusy _ hdec hr =>
    have hsame := exec_wire_sameMode hdec hr.symm
    rcases lead_resMode (hinv.running hbusy).shaped with hlead | ⟨hrefresh, hfresh, -⟩
    · exact absurd (hsame.1.trans hlead) hne
    · exact ⟨hbusy, hrefresh.carries, hfresh.of_sameMode hsame⟩

/-! ## Acceptance and `RESMODE` -/

/-- `INIT` is the only host operation that constructs the session (R222). -/
theorem eq_init_of_isConstruction {i : Instr} (hhost : i.format = .host) (h : isConstruction (encode i) = true) :
    i = .init := by
  cases i with
  | init => rfl
  | wMeasureTemp | wMeasureRh | wReadStatus | wWriteStatus | wSoftReset => cases hhost
  | _ => simp [isConstruction, encode] at h

/-- Settles O53: the sequencer assigns `RESMODE` only at the end of a status read, acceptance only for `INIT`, and no
other move but `RESET` writes it. -/
theorem resModeChangesOnlyByStatusRead : Obligations.ResModeChangesOnlyByStatusRead := by
  intro s t hinv hstep hne
  have hcase := step_case s
  rw [hstep] at hcase
  cases hcase with
  | sequencer u turn move =>
    have hblk := turn.blk_eq
    have hinv' : u.Inv := show u.blk.Inv from hblk ▸ hinv
    exact .inr (.inr ⟨turn.script, hblk ▸ move.resMode hinv' (hblk ▸ hne)⟩)
  | read _ _ _ hr | refuse _ _ _ hr | sensor _ _ _ hr | tick _ _ _ hr =>
    cases hr
    exact absurd rfl hne
  | accept v i first body rest h hdec hidle hstart hr =>
    cases hr
    have hconstruction : isConstruction (encode i) = true := by
      by_contra hnot
      exact hne (by simp [hnot])
    obtain rfl := eq_init_of_isConstruction (decodeHost_format hdec) hconstruction
    have hword := encode_of_decodeHost hdec
    rw [BitVec.setWidth_eq_extractLsb' (by omega)] at hword
    exact .inr (.inl ⟨v, rest, h, hword.symm, hidle, rfl, rfl, by simp [hconstruction]⟩)
  | write r v rest _ hr =>
    cases hr
    obtain ⟨-, _, _, _, _, _, _, _, _, _, hblk⟩ := hostWrite_frame r v (s.movedOn rest)
    rw [hblk] at hne
    exact absurd rfl hne
  | reset rest h => exact .inl ⟨rest, h⟩

end Sys2Proof.Machine
end

section
/-! The register port (10_state.md rules R40 to R53) and reset (R56, 70_reset_and_hazards.md rule R320). -/

namespace Sys2Proof.Machine

/-! ## The host's accesses as steps -/

/-- A read changes the read data, and the count of free values where it looks at a contended level (R40). -/
theorem step_read_next {s : State} {r : Nat} {rest : List Act} (h : s.env.script = .host (.read r) :: rest) :
    ∃ t, step s = .next t ∧ t.blk = s.blk ∧ t.env.script = rest ∧ t.env.sensorPull = s.env.sensorPull ∧
      t.env.now = s.env.now ∧ t.env.event = none ∧
      t.env.rdata = s.readReg r (Config.contendedLevel s.env.free) :=
  ⟨hostRead r (s.movedOn rest), by rw [step_read s r rest h, pop_eq_movedOn h], rfl, rfl, rfl, rfl, rfl, rfl⟩

theorem step_write_next {s : State} {r : Nat} {v : Word} {rest : List Act} (hr : r ≠ 0)
    (h : s.env.script = .host (.write r v) :: rest) : step s = .next (hostWrite r v (s.movedOn rest)) := by
  rw [step_write s r v rest hr h, pop_eq_movedOn h]

/-- `STAT` and the registers from `SENS` up refuse every write (R42, R48, R52, R53). -/
theorem hostWrite_refuses {r : Nat} (hr : r = 1 ∨ 7 ≤ r) (v : Word) (s : State) : hostWrite r v s = s.refuseWrite := by
  rcases hr with rfl | hr
  · rfl
  · obtain ⟨n, rfl⟩ := Nat.exists_eq_add_of_le' hr
    rfl

theorem step_write_refused {s : State} {r : Nat} {v : Word} {rest : List Act} (hr : r = 1 ∨ 7 ≤ r)
    (h : s.env.script = .host (.write r v) :: rest) :
    step s = .next { s.movedOn rest with blk := { s.blk with reject := true } } := by
  rw [step_write_next (by omega) h, hostWrite_refuses hr]
  rfl

/-! ## Reads -/

/-- Settles O13: the read answers `readReg`, whose branch for each number is the register's contents. -/
theorem hostReadReturnsTheRegister : Obligations.HostReadReturnsTheRegister := by
  intro s r rest h
  obtain ⟨t, hstep, hblk, hscript, hpull, hnow, hevent, hrdata⟩ := step_read_next h
  refine ⟨t, hstep, hblk, hscript, hpull, hnow, hevent, ?_⟩
  rw [hrdata]
  refine ⟨?_, ?_, ?_, ?_, ?_, ?_, ?_, ?_, ?_, ?_⟩ <;> rintro rfl <;> rfl

/-- A register number from 13 up reads 0 (R53). -/
theorem readReg_absent {r : Nat} (hr : 13 ≤ r) (s : State) (free : Bool) : s.readReg r free = 0 := by
  obtain ⟨n, rfl⟩ := Nat.exists_eq_add_of_le' hr
  rfl

/-- Settles O18: every number from 7 up falls to the write's refusing branch, and from 13 up to the read's 0. -/
theorem readOnlyAndAbsentRegisters : Obligations.ReadOnlyAndAbsentRegisters := by
  refine ⟨fun s r v rest h hr => step_write_refused (.inr hr) h, fun s r rest h hr => ?_⟩
  obtain ⟨t, hstep, hblk, -, -, -, -, hrdata⟩ := step_read_next h
  exact ⟨t, hstep, hblk, hrdata.trans (readReg_absent hr s _)⟩

/-! ## The packed registers -/

/-- A field is read off its register bit by bit. -/
theorem extractLsb'_eq_of_getLsbD {n start len : Nat} {x : BitVec n} {y : BitVec len}
    (h : ∀ i < len, x.getLsbD (start + i) = y.getLsbD i) : x.extractLsb' start len = y := by
  apply BitVec.eq_of_getLsbD_eq
  intro i hi
  rw [BitVec.getLsbD_extractLsb', decide_eq_true hi, Bool.true_and, h i hi]

/-- The element bit `i` of `STAT` shows, as the table of R42 lists them. -/
def Block.statBit (b : Block) (i : Nat) : Bool :=
  if i < 5 then [b.busy, b.done, b.ready, b.reject, b.irqPend].getD i false
  else if i < 8 then b.state.code.getLsbD (i - 5)
  else if i < 10 then b.errKind.code.getLsbD (i - 8)
  else if i < 13 then b.errSite.getLsbD (i - 10)
  else if i < 16 then b.ackCnt.getLsbD (i - 13)
  else [b.tValid, b.tSrc, b.hValid, b.stValid, b.resMode, b.resStale, b.watchArmed, b.timerArmed, b.face,
    b.nest].getD (i - 16) false

theorem getLsbD_stat (b : Block) (i : Nat) (hi : i < 32) : b.stat.getLsbD i = b.statBit i := by
  simp only [Block.stat, BitVec.getLsbD_append, BitVec.getLsbD_ofBool]
  interval_cases i <;> rfl

/-- A field of `STAT` is `y` if the table says so of each of its bits. -/
theorem stat_field {b : Block} {start len : Nat} {y : BitVec len} (hlen : start + len ≤ 32)
    (h : ∀ i < len, b.statBit (start + i) = y.getLsbD i) : b.stat.extractLsb' start len = y :=
  extractLsb'_eq_of_getLsbD fun i hi => (getLsbD_stat b (start + i) (by omega)).trans (h i hi)

theorem stat_state (b : Block) : b.stat.extractLsb' 5 3 = b.state.code :=
  stat_field (by omega) fun i hi => by interval_cases i <;> rfl

theorem stat_errKind (b : Block) : b.stat.extractLsb' 8 2 = b.errKind.code :=
  stat_field (by omega) fun i hi => by interval_cases i <;> rfl

theorem stat_errSite (b : Block) : b.stat.extractLsb' 10 3 = b.errSite :=
  stat_field (by omega) fun i hi => by interval_cases i <;> rfl

theorem stat_ackCnt (b : Block) : b.stat.extractLsb' 13 3 = b.ackCnt :=
  stat_field (by omega) fun i hi => by interval_cases i <;> rfl

theorem stat_unused (b : Block) : b.stat.extractLsb' 26 6 = 0 :=
  stat_field (by omega) fun i hi => by interval_cases i <;> rfl

/-- Settles O14: the table of `STAT` bit by bit, and the refusal of a write to a read-only register. -/
theorem statRegisterLayout : Obligations.StatRegisterLayout := by
  refine ⟨fun s rest h => ?read, fun s v rest h => step_write_refused (.inl rfl) h⟩
  obtain ⟨t, hstep, hblk, -, -, -, -, hrdata⟩ := step_read_next h
  have hstat : t.env.rdata = s.blk.stat := hrdata
  have hbit := getLsbD_stat s.blk
  refine ⟨t, hstep, hblk, ?_⟩
  rw [hstat]
  refine ⟨hbit 0 (by omega), hbit 1 (by omega), hbit 2 (by omega), hbit 3 (by omega), hbit 4 (by omega),
    (stat_state s.blk).trans ?_, (stat_errKind s.blk).trans ?_, stat_errSite s.blk, stat_ackCnt s.blk,
    hbit 16 (by omega), hbit 17 (by omega), hbit 18 (by omega), hbit 19 (by omega), hbit 20 (by omega),
    hbit 21 (by omega), hbit 22 (by omega), hbit 23 (by omega), hbit 24 (by omega), hbit 25 (by omega),
    stat_unused s.blk⟩
  · cases s.blk.state <;> rfl
  · cases s.blk.errKind <;> rfl

/-- Which line element each bit of `PINS` shows (R52). -/
theorem getLsbD_pinsReg (b : Block) (pull free : Bool) (i : Nat) (hi : i < 32) :
    (b.pinsReg pull free).getLsbD i =
      [b.clkOut, b.clkDir.bit, b.dataOut, b.dataDir.bit, b.lineData pull free, b.lineClk].getD i false := by
  simp only [Block.pinsReg, BitVec.getLsbD_append, BitVec.getLsbD_ofBool]
  interval_cases i <;> rfl

theorem pinsReg_unused (b : Block) (pull free : Bool) : (b.pinsReg pull free).extractLsb' 6 26 = 0 := by
  refine extractLsb'_eq_of_getLsbD fun i hi => ?_
  rw [getLsbD_pinsReg b pull free _ (by omega)]
  interval_cases i <;> rfl

theorem Dir.bit_iff (d : Dir) : d.bit = true ↔ d = .out := by cases d <;> decide

/-- The level of DATA is its latch where the block drives it and the sensor does not pull a high level low
(R22, R23). -/
theorem lineData_out {b : Block} {pull : Bool} (hout : b.dataDir = .out)
    (hfree : ¬(b.dataOut = true ∧ pull = true)) (free : Bool) : b.lineData pull free = b.dataOut := by
  have hcontended : b.contended pull = false := by
    rw [Block.contended, hout]
    simpa [Dir.bit] using hfree
  simp [Block.lineData, hout, hcontended]

theorem lineData_inp {b : Block} {pull : Bool} (hinp : b.dataDir = .inp) (free : Bool) :
    b.lineData pull free = !pull := by
  simp [Block.lineData, hinp]

theorem lineClk_out {b : Block} (hout : b.clkDir = .out) : b.lineClk = b.clkOut := by
  simp [Block.lineClk, hout]

theorem lineClk_inp {b : Block} (hinp : b.clkDir = .inp) : b.lineClk = true := by
  simp [Block.lineClk, hinp]

/-- Settles O15: the table of `PINS` bit by bit, with the level of each line by its direction. -/
theorem pinsRegisterShowsTheLines : Obligations.PinsRegisterShowsTheLines := by
  intro s rest h
  obtain ⟨t, hstep, hblk, -, -, -, -, hrdata⟩ := step_read_next h
  have hpins : t.env.rdata = s.blk.pinsReg s.env.sensorPull (Config.contendedLevel s.env.free) := hrdata
  have hbit := getLsbD_pinsReg s.blk s.env.sensorPull (Config.contendedLevel s.env.free)
  have hclkDir := hbit 1 (by omega)
  have hdataDir := hbit 3 (by omega)
  have hdata := hbit 4 (by omega)
  have hclk := hbit 5 (by omega)
  refine ⟨t, hstep, hblk, ?_⟩
  rw [hpins]
  exact ⟨hbit 0 (by omega), hclkDir ▸ s.blk.clkDir.bit_iff, hbit 2 (by omega), hdataDir ▸ s.blk.dataDir.bit_iff,
    fun hinp => hdata.trans (lineData_inp hinp _), fun hout hfree => hdata.trans (lineData_out hout hfree _),
    fun hout => hclk.trans (lineClk_out hout), fun hinp => hclk.trans (lineClk_inp hinp),
    pinsReg_unused s.blk _ _⟩

/-! ## Writes -/

/-- A write of `CTRL`, element by element (R43). -/
theorem writeCtrl_eq (b : Block) (v : Word) :
    b.writeCtrl v = { b with
      irqEn := v.getLsbD 2
      reject := if v.getLsbD 1 = true then false else b.reject
      done := if v.getLsbD 0 = true ∧ b.busy = false then false else b.done
      irqPend := if v.getLsbD 0 = true ∧ b.busy = false then false else b.irqPend
      state := if v.getLsbD 0 = true ∧ b.busy = false ∧ (b.state = .done ∨ b.state = .failed) then .idle
        else b.state } := by
  have hreject : (b.reject && !v.getLsbD 1) = if v.getLsbD 1 = true then false else b.reject := by
    cases v.getLsbD 1 <;> cases b.reject <;> rfl
  unfold Block.writeCtrl
  rw [hreject]
  cases hack : v.getLsbD 0 <;> cases hbusy : b.busy
  case true.false =>
    cases b.state <;> simp [Block.ackDone]
  all_goals simp

/-- Settles O16: the three actions of a write, and the one bit of a read. -/
theorem controlRegisterActions : Obligations.ControlRegisterActions := by
  refine ⟨fun s v rest h => ?write, fun s rest h => ?read⟩
  case write =>
    rw [step_write_next (by omega) h]
    exact congrArg (fun b => Host.Outcome.next { s.movedOn rest with blk := b }) (writeCtrl_eq s.blk v)
  case read =>
    obtain ⟨t, hstep, hblk, -, -, -, -, hrdata⟩ := step_read_next h
    exact ⟨t, hstep, hblk, hrdata⟩

/-- Settles O17: each of the four registers is written by its own equation while idle, and refuses while busy. -/
theorem timeoutAndOperandWrites : Obligations.TimeoutAndOperandWrites := by
  intro s r v rest h hr
  rw [step_write_next (by omega) h]
  constructor
  · intro hbusy
    have hrefuses (b : Block) : (s.movedOn rest).writeOperand b = (s.movedOn rest).refuseWrite := if_pos hbusy
    rcases hr with rfl | rfl | rfl | rfl <;> exact congrArg Host.Outcome.next (hrefuses _)
  · intro hidle
    have htakes (b : Block) : (s.movedOn rest).writeOperand b = { s.movedOn rest with blk := b } :=
      if_neg (by simp [State.movedOn, hidle])
    rcases hr with rfl | rfl | rfl | rfl <;>
      exact congrArg Host.Outcome.next
        ((htakes _).trans (by simp [State.movedOn, BitVec.setWidth_eq_extractLsb']))

/-! ## Reset -/

/-- Settles O20: the block after `RESET` is the reset column, both lines are inputs, and the environment stays. -/
theorem resetSetsEveryElement : Obligations.ResetSetsEveryElement := by
  intro s rest h
  have hstep := step_reset s rest h
  rw [pop_eq_movedOn h] at hstep
  refine ⟨hstep, fun t ht => ?_⟩
  cases hstep.symm.trans ht
  exact ⟨rfl, rfl, rfl, fun _ => rfl⟩

end Sys2Proof.Machine
end

section
/-! Runs of a running operation and their wire traces (20_memory.md rule R73, 30_encoding.md rule R95): what a list of
moves does to the block while the sensor answers, one rule for each wire event, then one for each procedure and
transaction, and the traces of whole operations put together from them. -/

namespace Sys2Proof.Machine

/-! ## Steps with their wire events -/

/-- `n` steps of the machine lead from one state to another and perform these wire events. -/
inductive Takes : Nat → State → List WireEvent → State → Prop where
  | stop (s : State) : Takes 0 s [] s
  | step {s u t : State} {n : Nat} {es : List WireEvent} (hstep : step s = .next u) (hrest : Takes n u es t) :
      Takes (n + 1) s (u.env.event.toList ++ es) t

namespace Takes

variable {n m : Nat} {s u t : State} {es fs : List WireEvent}

/-- The steps are the run's. -/
theorem runsTo (h : Takes n s es t) : runsTo n s t := by
  induction h with
  | stop s => rfl
  | @step s u t n es hstep hrest ih =>
    have hcore : Sys2Proof.core.step s = .next u := hstep
    simp only [Machine.runsTo, Host.Core.run, hcore]
    exact ih

/-- The events are the trace's (R73). -/
theorem trace_eq (h : Takes n s es t) : trace n s = es := by
  induction h with
  | stop s => rfl
  | step hstep hrest ih => simp only [trace, hstep, ih]

theorem trans (h : Takes n s es u) (h' : Takes m u fs t) : Takes (n + m) s (es ++ fs) t := by
  induction h with
  | stop s => simpa using h'
  | step hstep hrest ih =>
    rw [Nat.add_right_comm, List.append_assoc]
    exact .step hstep (ih h')

end Takes

/-! ## Where an operation stands -/

/-- Where a running operation stands: a block, the steps left once the last event's own assignments are made (R233), and
the time. -/
structure Moment where
  /-- The block before the assignments that belong to the last event. -/
  blk : Block
  /-- What was left of the operation after that event. -/
  todo : List Micro
  /-- `NOW`. -/
  now : Time

/-- The machine stands at `p`, with these moves to come. -/
structure State.At (s : State) (p : Moment) (script : List Act) : Prop where
  blk : s.blk = p.blk.trail p.todo
  now : s.env.now = p.now
  script : s.env.script = script

/-- Whatever comes after them, the moves lead from `p` to `q` and perform these wire events. -/
def Plays (p : Moment) (moves : List Act) (es : List WireEvent) (q : Moment) : Prop :=
  ∀ (s : State) (rest : List Act), s.At p (moves ++ rest) → ∃ t, Takes moves.length s es t ∧ t.At q rest

theorem Plays.refl (p : Moment) : Plays p [] [] p := fun s _ h => ⟨s, .stop s, h⟩

theorem Plays.trans {p q r : Moment} {moves moves' : List Act} {es fs : List WireEvent} (h : Plays p moves es q)
    (h' : Plays q moves' fs r) : Plays p (moves ++ moves') (es ++ fs) r := by
  intro s rest hs
  rw [List.append_assoc] at hs
  obtain ⟨u, htakes, hu⟩ := h s _ hs
  obtain ⟨t, htakes', ht⟩ := h' u rest hu
  exact ⟨t, List.length_append ▸ htakes.trans htakes', ht⟩

/-! ## The assignments between two events -/

/-- An assignment keeps the position, or it is the completion, which clears it. -/
theorem apply_moveTo (b : Block) (u : Update) (todo : List Micro) :
    (b.moveTo todo).apply u = (b.apply u).moveTo todo ∨ (b.moveTo todo).apply u = b.apply u := by
  cases u with
  | complete => exact .inr rfl
  | _ => exact .inl rfl

/-- The assignments before the next event overwrite the position. -/
theorem lead_moveTo (todo' : List Micro) : ∀ (todo : List Micro) (b : Block), (b.moveTo todo').lead todo = b.lead todo
  | [], _ | .event _ :: _, _ | .raise _ _ :: _, _ => rfl
  | .update u :: rest, b => by
    rw [lead_update, lead_update]
    rcases apply_moveTo b u todo' with h | h
    · rw [h, lead_moveTo todo' rest (b.apply u)]
    · rw [h]
  | .result u :: rest, b => by
    rw [lead_result, lead_result]
    rcases apply_moveTo b u todo' with h | h
    · rw [h, lead_moveTo todo' rest (b.apply u)]
    · rw [h]

theorem trail_moveTo (todo' : List Micro) : ∀ (todo : List Micro) (b : Block),
    (b.moveTo todo').trail todo = b.trail todo
  | [], _ | .event _ :: _, _ | .raise _ _ :: _, _ => rfl
  | .update u :: rest, b => by
    rw [trail_update, trail_update, lead_moveTo]
    rfl
  | .result u :: rest, b => by
    rw [trail_result, trail_result]
    rcases apply_moveTo b u todo' with h | h
    · rw [h, trail_moveTo todo' rest (b.apply u)]
    · rw [h]

theorem lead_lead : ∀ (todo : List Micro) (b : Block), (b.lead todo).lead (b.lead todo).step.todo = b.lead todo
  | [], _ | .event _ :: _, _ | .raise _ _ :: _, _ => rfl
  | .update u :: rest, b | .result u :: rest, b => lead_lead rest (b.apply u)

/-- The assignments that belong to an event and those before the next one are, together, all those up to it (R233). -/
theorem lead_trail : ∀ (todo : List Micro) (b : Block), (b.trail todo).lead (b.trail todo).step.todo = b.lead todo
  | [], _ | .event _ :: _, _ | .raise _ _ :: _, _ => rfl
  | .result u :: rest, b => lead_trail rest (b.apply u)
  | .update u :: rest, b => by
    rw [trail_update]
    split
    · exact lead_moveTo _ _ b
    · exact lead_lead _ b

theorem idle_kept : KeptBySequencer fun b => b.busy = false where
  apply _ u h := by
    cases u with
    | complete => rfl
    | _ => exact h
  fail _ _ _ _ := rfl
  moveTo _ _ h := h
  drive _ e h := by cases e <;> exact h
  granted _ w h := by cases w <;> exact h
  received _ _ h := h
  latched _ _ h := h

/-- An operation running when its next event is due was running before the assignments up to it. -/
theorem busy_trail {todo : List Micro} {b : Block} (h : (b.lead todo).busy = true) : (b.trail todo).busy = true := by
  by_contra hidle
  have hlead := idle_kept.lead (by simpa using hidle) (b.trail todo).step.todo
  rw [lead_trail, h] at hlead
  cases hlead

/-- Where an event is to come, the assignments before it wait for its step (R233). -/
theorem trail_of_waitsForEvent {todo : List Micro} (h : waitsForEvent todo = true) (b : Block) :
    b.trail todo = b.moveTo todo := by
  match todo, h with
  | .event _ :: _, _ => rfl
  | .update _ :: _, h => exact (trail_update b _ _).trans (if_pos h)

/-! ## One step of the sequencer -/

/-- On its turn a running sequencer that stands at no call advances. -/
theorem step_advance {s : State} {rest : List Act} (h : s.env.script = .seq :: rest) (hbusy : s.blk.busy = true)
    (hcall : ∀ byte todo, (s.blk.lead s.blk.step.todo).step.todo ≠ .event (.command byte) :: todo) :
    step s = advance (s.movedOn rest) := by
  refine step_of_fetch_other ((fetch_seq_movedOn h).trans ?_)
  rcases fetchSeq_cases (s.movedOn rest) with ⟨hidle, -⟩ | ⟨-, byte, todo, -, hat, -⟩ | ⟨-, -, hother⟩
  · cases hidle.symm.trans hbusy
  · exact absurd hat (hcall byte todo)
  · exact hother

/-- The sequencer's turn makes the assignments before its next event, and performs it (R233). -/
theorem step_event {s : State} {e : SeqEvent} {todo : List Micro} {rest : List Act} (h : s.env.script = .seq :: rest)
    (hbusy : s.blk.busy = true) (hat : (s.blk.lead s.blk.step.todo).step.todo = .event e :: todo)
    (hcall : ∀ byte, e ≠ .command byte) :
    step s = State.perform ⟨s.blk.lead s.blk.step.todo, (s.movedOn rest).env⟩ todo e := by
  have hnone : ∀ byte more, (s.blk.lead s.blk.step.todo).step.todo ≠ .event (.command byte) :: more := by
    intro byte more hcommand
    cases hat.symm.trans hcommand
    exact hcall byte rfl
  rw [step_advance h hbusy hnone]
  have hmoved : (s.movedOn rest).blk = s.blk := rfl
  unfold advance
  rw [hmoved, hat]

/-- From where the assignments before an event that is no call lead to block `b`, the sequencer's turn is what that
event does in `b`. -/
theorem takes_event {s : State} {a b c : Block} {e : SeqEvent} {ev : WireEvent} {pending todo todo' : List Micro}
    {rest : List Act} (hs : s.At ⟨a, pending, s.env.now⟩ (.seq :: rest))
    (hlead : a.lead pending = b.moveTo (.event e :: todo)) (hbusy : b.busy = true) (hcall : ∀ byte, e ≠ .command byte)
    (hperform : ∀ u : State, u.blk = b.moveTo (.event e :: todo) → u.env = (s.movedOn rest).env →
      u.perform todo e = u.performed (c.moveTo (.event e :: todo)) ev todo') :
    ∃ t, Takes 1 s [ev] t ∧ t.At ⟨c, todo', s.env.now⟩ rest := by
  obtain ⟨hblk, -, hscript⟩ := hs
  have hlead' : s.blk.lead s.blk.step.todo = b.moveTo (.event e :: todo) := by rw [hblk, lead_trail, hlead]
  have hrunning : s.blk.busy = true := by rw [hblk, busy_trail (by rw [hlead]; exact hbusy)]
  have hstep := step_event hscript hrunning (by rw [hlead']; rfl) hcall
  rw [hperform ⟨_, (s.movedOn rest).env⟩ hlead' rfl, performed_next] at hstep
  exact ⟨_, .step hstep (.stop _), trail_moveTo _ _ _, rfl, rfl⟩

theorem plays_pin {b : Block} (hbusy : b.busy = true) (e : PinEvent) (todo : List Micro) (t : Time) :
    Plays ⟨b, .event (.pin e) :: todo, t⟩ [.seq] [.pin e] ⟨b.drive e, todo, t⟩ := by
  rintro s rest ⟨hblk, rfl, hscript⟩
  refine takes_event ⟨hblk, rfl, hscript⟩ rfl hbusy nofun fun u hu _ => ?_
  rw [State.perform, hu]
  cases e <;> rfl

theorem plays_latchTime {b : Block} (hbusy : b.busy = true) (todo : List Micro) (t : Time) :
    Plays ⟨b, .event .latchTime :: todo, t⟩ [.seq] [.time t] ⟨{ b with t0 := t }, todo, t⟩ := by
  rintro s rest ⟨hblk, rfl, hscript⟩
  refine takes_event ⟨hblk, rfl, hscript⟩ rfl hbusy nofun fun u hu henv => ?_
  rw [State.perform, hu, henv]
  rfl

/-- The settle delay is over once `SETTLE_MS` ticks have passed (R198). -/
theorem plays_settle {b : Block} {t : Time} (hbusy : b.busy = true) (hsettled : Params.settleMs ≤ elapsed t b.t0)
    (todo : List Micro) : Plays ⟨b, .event .settle :: todo, t⟩ [.seq] [.time t] ⟨b, todo, t⟩ := by
  rintro s rest ⟨hblk, rfl, hscript⟩
  refine takes_event ⟨hblk, rfl, hscript⟩ rfl hbusy nofun fun u hu henv => ?_
  rw [State.perform, hu, henv]
  exact if_pos hsettled

theorem plays_tick (b : Block) (todo : List Micro) (t n : Time) : Plays ⟨b, todo, t⟩ [.tick n] [] ⟨b, todo, t + n⟩ := by
  rintro s rest ⟨hblk, rfl, hscript⟩
  have hstep := step_tick s n rest hscript
  rw [pop_eq_movedOn hscript] at hstep
  exact ⟨_, .step hstep (.stop _), hblk, rfl, rfl⟩

/-- The sensor puts a level on DATA, and the sequencer performs the event that samples it (R124). -/
theorem plays_presented {a b c : Block} {e : SeqEvent} {ev : WireEvent} {pending todo todo' : List Micro} {v : Bool}
    {t : Time} (hlead : a.lead pending = b.moveTo (.event e :: todo)) (hbusy : b.busy = true)
    (hcall : ∀ byte, e ≠ .command byte)
    (hperform : ∀ u : State, u.blk = b.moveTo (.event e :: todo) → u.env.sensorPull = !v →
      u.perform todo e = u.performed (c.moveTo (.event e :: todo)) ev todo') :
    Plays ⟨a, pending, t⟩ (present v) [ev] ⟨c, todo', t⟩ := by
  rintro s rest ⟨hblk, rfl, hscript⟩
  have hstep := step_sensor s (!v) (.seq :: rest) hscript
  rw [pop_eq_movedOn hscript] at hstep
  obtain ⟨u, htakes, hu⟩ := takes_event
    (s := { s.movedOn (.seq :: rest) with env := { (s.movedOn (.seq :: rest)).env with sensorPull := !v } })
    ⟨hblk, rfl, rfl⟩ hlead hbusy hcall fun u hu henv => hperform u hu (by rw [henv]; rfl)
  exact ⟨u, .step hstep htakes, hu⟩

theorem plays_sampleBit {b : Block} (hbusy : b.busy = true) (hdir : b.dataDir = .inp) (v : Bool) (todo : List Micro)
    (t : Time) :
    Plays ⟨b, .event .sampleBit :: todo, t⟩ (present v) [.sample v]
      ⟨{ b with acc := shiftIn b.acc v }, todo, t⟩ := by
  refine plays_presented rfl hbusy nofun fun u hblk hpull => ?_
  have hin : u.blk.dataDir = .inp := by rw [hblk]; exact hdir
  rw [State.perform, sampled_inp u _ hin, hpull, Bool.not_not, hblk]
  rfl

/-- A poll that finds DATA low ends the wait (R160, R224). -/
theorem plays_poll {a b : Block} {pending todo : List Micro} {w : Wait}
    (hlead : a.lead pending = b.moveTo (.event (.poll w) :: todo)) (hbusy : b.busy = true) (hdir : b.dataDir = .inp)
    (t : Time) : Plays ⟨a, pending, t⟩ (present false) [.sample false] ⟨b.granted w, todo, t⟩ := by
  refine plays_presented hlead hbusy nofun fun u hblk hpull => ?_
  have hin : u.blk.dataDir = .inp := by rw [hblk]; exact hdir
  rw [State.perform, sampled_inp u _ hin, hpull, hblk]
  cases w <;> rfl

/-! ## Moments with the same next step -/

/-- What is played from a moment where the sequencer has the turn is played from any other with the same next step. -/
theorem Plays.of_step_eq {b c : Block} {todo todo' : List Micro} {t : Time} {moves : List Act} {es : List WireEvent}
    {q : Moment} (hturn : moves.head? = some .seq)
    (hstep : ∀ (s : State) (rest : List Act), s.env.script = .seq :: rest → s.blk = b.trail todo →
      step s = step { s with blk := c.trail todo' })
    (h : Plays ⟨c, todo', t⟩ moves es q) : Plays ⟨b, todo, t⟩ moves es q := by
  obtain ⟨moves, rfl⟩ := List.head?_eq_some_iff.mp hturn
  rintro s rest ⟨hblk, hnow, hscript⟩
  obtain ⟨u, htakes, hu⟩ := h { s with blk := c.trail todo' } rest ⟨rfl, hnow, hscript⟩
  refine ⟨u, ?_, hu⟩
  cases htakes with
  | step hfirst hrest => exact .step ((hstep s _ hscript hblk).trans hfirst) hrest

/-- The turn of a running sequencer depends on the block through what the assignments before the next event make of
it. -/
theorem step_eq_of_lead_eq {s : State} {b : Block} {rest : List Act} (h : s.env.script = .seq :: rest)
    (hs : s.blk.busy = true) (hb : b.busy = true)
    (hlead : s.blk.lead s.blk.step.todo = b.lead b.step.todo) : step s = step { s with blk := b } := by
  have hfetch : fetchSeq (s.movedOn rest) = fetchSeq { s.movedOn rest with blk := b } := by
    have hmoved : (s.movedOn rest).blk = s.blk := rfl
    simp only [fetchSeq, advance, hmoved, hs, hb, hlead, if_true]
  unfold step
  rw [fetch_seq_movedOn h, fetch_seq_movedOn (s := { s with blk := b }) h, hfetch]
  rfl

/-- An assignment before the next event may be made at once: it belongs to the step of that event (R233). -/
theorem Plays.update {b : Block} {u : Update} {todo : List Micro} {t : Time} {moves : List Act} {es : List WireEvent}
    {q : Moment} (h : Plays ⟨b.apply u, todo, t⟩ moves es q) (hbusy : ((b.apply u).lead todo).busy = true)
    (hturn : moves.head? = some .seq) : Plays ⟨b, .update u :: todo, t⟩ moves es q := by
  refine h.of_step_eq hturn fun s rest hscript hblk => step_eq_of_lead_eq hscript ?_ (busy_trail hbusy) ?_
  · rw [hblk]
    exact busy_trail hbusy
  · rw [hblk, lead_trail, lead_trail, lead_update]

/-- A procedure's result is assigned in the step of its last event (R233). -/
theorem Plays.result {p : Moment} {moves : List Act} {es : List WireEvent} {c : Block} {u : Update} {todo : List Micro}
    {t : Time} (h : Plays p moves es ⟨c, .result u :: todo, t⟩) : Plays p moves es ⟨c.apply u, todo, t⟩ := by
  intro s rest hs
  obtain ⟨v, htakes, hblk, hnow, hscript⟩ := h s rest hs
  exact ⟨v, htakes, hblk, hnow, hscript⟩

/-- A transaction begins with `STATE` set and DATA driven high (R95, R141). -/
theorem transactionOf_start {byte : Byte} {i : Instr} (hdec : decodeWire byte = .instr i) (b : Block) :
    ∃ more, transactionOf i b = .update (.goto .commandSent) :: .event (.pin (.data true)) :: more := by
  rcases decodeWire_instr hdec with ⟨-, rfl⟩ | ⟨-, rfl⟩ | ⟨-, rfl⟩ | ⟨-, rfl⟩ | ⟨-, rfl⟩ <;> exact ⟨_, rfl⟩

/-- The transaction of a call depends on no steps left. -/
theorem transactionOf_moveTo (i : Instr) (b : Block) (todo : List Micro) :
    transactionOf i (b.moveTo todo) = transactionOf i b := by
  cases i <;> rfl

/-- A call plays as its transaction before what is left of the operation (R95, R143). -/
theorem Plays.call {b : Block} {byte : Byte} {i : Instr} {todo : List Micro} {t : Time} {moves : List Act}
    {es : List WireEvent} {q : Moment} (h : Plays ⟨b, transactionOf i b ++ todo, t⟩ moves es q)
    (hdec : decodeWire byte = .instr i) (hbusy : b.busy = true) (hturn : moves.head? = some .seq) :
    Plays ⟨b, .event (.command byte) :: todo, t⟩ moves es q := by
  refine h.of_step_eq hturn fun s rest hscript hblk => ?_
  obtain ⟨more, hstart⟩ := transactionOf_start hdec b
  have hcall := step_wireByte hscript (by rw [hblk]; exact hbusy) (by rw [hblk]; rfl) hdec
  have htrail : b.trail (transactionOf i b ++ todo) = b.moveTo (transactionOf i b ++ todo) :=
    trail_of_waitsForEvent (by rw [hstart]; rfl) b
  have hadvance := step_advance (s := { s with blk := b.moveTo (transactionOf i b ++ todo) }) hscript hbusy
    (by rw [hstart]; nofun)
  rw [hcall, exec_wire (decodeWire_format hdec), htrail, hadvance, hblk]
  simp only [transactionOf_moveTo]
  rfl

/-! ## Procedures -/

/-- Pin events play one by one. -/
theorem plays_emits (todo : List Micro) (t : Time) : ∀ (es : List PinEvent) {b : Block}, b.busy = true →
    Plays ⟨b, emits es ++ todo, t⟩ (clocks es.length) (pinTrace es) ⟨es.foldl Block.drive b, todo, t⟩
  | [], _, _ => .refl _
  | e :: es, b, hbusy => by
    have hbusy' : (b.drive e).busy = true := by cases e <;> exact hbusy
    exact (plays_pin hbusy e (emits es ++ todo) t).trans (plays_emits todo t es hbusy')

/-- The block with CLOCK driven low and DATA driven at this level. -/
def Block.driven (b : Block) (level : Bool) : Block :=
  { b with clkOut := false, clkDir := .out, dataOut := level, dataDir := .out }

/-- A frame leaves DATA at the byte's last bit (R141 to R143). -/
theorem plays_sendFrame {b : Block} (hbusy : b.busy = true) (byte : Byte) (todo : List Micro) (t : Time) :
    Plays ⟨b, emits (sendFrame byte) ++ todo, t⟩ (clocks 32) (pinTrace (sendFrame byte))
      ⟨b.driven (byte.getLsbD 0), todo, t⟩ :=
  plays_emits todo t (sendFrame byte) hbusy

/-- A handshake answered at its first poll; it is counted with the next event (R160, R233). -/
theorem plays_awaitAck {b : Block} (hbusy : b.busy = true) (kind : ErrKind) (site : BitVec 3) (todo : List Micro)
    (t : Time) :
    Plays ⟨b, awaitAck kind site ++ todo, t⟩ answerAck (handshakeTrace t)
      ⟨{ b.driven false with t0 := t }, .update .countAck :: todo, t⟩ := by
  let after := emits [.clk true, .clk false, .data false] ++ .update .countAck :: todo
  have hrelease := plays_pin hbusy .release (.event .latchTime :: .event (.poll (.ack kind site)) :: after) t
  have hlatch := plays_latchTime (b := b.drive .release) hbusy (.event (.poll (.ack kind site)) :: after) t
  have hpoll := plays_poll (b := { b.drive .release with t0 := t }) (w := .ack kind site) (todo := after)
    (pending := .event (.poll (.ack kind site)) :: after) rfl hbusy rfl t
  have hpulse := plays_emits (.update .countAck :: todo) t [.clk true, .clk false, .data false]
    (b := { b.drive .release with t0 := t }) hbusy
  exact ((hrelease.trans hlatch).trans hpoll).trans hpulse

/-- The block after pin events and the handshake they wait for (R95, R160). -/
def Block.addressed (b : Block) (t : Time) : Block := { b.driven false with state := .awaitingAck, t0 := t }

/-- Pin events that leave both lines driven and CLOCK low, and their handshake (R143, R160, R192). -/
theorem plays_emitsAndAck {b : Block} (hbusy : b.busy = true) (es : List PinEvent) {level : Bool}
    (hes : es.foldl Block.drive b = b.driven level) (kind : ErrKind) (site : BitVec 3) (todo : List Micro) (t : Time) :
    Plays ⟨b, emits es ++ .update (.goto .awaitingAck) :: (awaitAck kind site ++ todo), t⟩
      (clocks es.length ++ answerAck) (pinTrace es ++ handshakeTrace t)
      ⟨b.addressed t, .update .countAck :: todo, t⟩ := by
  have hemits := plays_emits (.update (.goto .awaitingAck) :: (awaitAck kind site ++ todo)) t es hbusy
  rw [hes] at hemits
  have hack := plays_awaitAck (b := (b.driven level).apply (.goto .awaitingAck)) hbusy kind site todo t
  exact hemits.trans (hack.update hbusy rfl)

/-- The block after a measurement wait (R224, R237). -/
def Block.heardReady (b : Block) (t : Time) : Block :=
  { b with dataDir := .inp, t0 := t, watchArmed := false, timerArmed := false }

/-- A measurement ready at the first poll: the alarms are armed and disarmed in the step of that poll (R224, R233,
R237). -/
theorem plays_awaitReady {b : Block} (hbusy : b.busy = true) (site : BitVec 3) (todo : List Micro) (t : Time) :
    Plays ⟨b, awaitReady site ++ todo, t⟩ (clocks 2 ++ present false) [.pin .release, .time t, .sample false]
      ⟨b.heardReady t, todo, t⟩ := by
  let poll := Micro.event (.poll (.ready site)) :: todo
  have hrelease := plays_pin hbusy .release (.event .latchTime :: .update .arm :: poll) t
  have hlatch := plays_latchTime (b := b.drive .release) hbusy (.update .arm :: poll) t
  have hpoll := plays_poll (a := { b.drive .release with t0 := t }) (pending := .update .arm :: poll) (w := .ready site)
    (b := { b.drive .release with t0 := t }.apply .arm) (todo := todo) rfl hbusy rfl t
  exact (hrelease.trans hlatch).trans hpoll

/-! ## Received bytes -/

/-- A received bit: shifted into `ACC`, with a clock pulse after it (R170). -/
def Block.tookBit (b : Block) (v : Bool) : Block :=
  { b with acc := shiftIn b.acc v, clkOut := false, clkDir := .out }

/-- A received byte: in the low half of `ACC`, with DATA released and CLOCK low (R170). -/
def Block.tookByte (b : Block) (v : Byte) : Block :=
  { b with acc := b.acc.extractLsb' 0 8 ++ v, clkOut := false, clkDir := .out, dataDir := .inp }

/-- The bits of a byte, in the order of the wire, fill the low half of `ACC` and push the old one up (R64, R170). -/
theorem foldl_shiftIn_wireBits (acc : Half) (v : Byte) :
    (wireBits v).foldl shiftIn acc = acc.extractLsb' 0 8 ++ v := by
  apply BitVec.eq_of_getLsbD_eq
  intro i hi
  simp only [wireBits, List.foldl_cons, List.foldl_nil, shiftIn, BitVec.getLsbD_append, BitVec.getLsbD_extractLsb',
    BitVec.getLsbD_ofBool]
  interval_cases i <;> simp

theorem foldl_tookBit_wireBits (b : Block) (v : Byte) :
    (wireBits v).foldl Block.tookBit (b.drive .release) = b.tookByte v :=
  congrArg (fun acc => { b with acc := acc, clkOut := false, clkDir := .out, dataDir := .inp })
    (foldl_shiftIn_wireBits b.acc v)

/-- Two bytes in `ACC` are the status and the checksum (R190). -/
theorem latchStatus_append (b : Block) (st ck : Byte) :
    ({ b with acc := st ++ ck } : Block).apply .latchStatus =
      { b with acc := st ++ ck, status := st, cksum := ck } := by
  rw [apply_latchStatus, BitVec.extractLsb'_append_eq_left, BitVec.extractLsb'_append_eq_right]

/-- Bits are received one by one, DATA being an input (R170). -/
theorem plays_readBits (todo : List Micro) (t : Time) : ∀ (bits : List Bool) {b : Block}, b.busy = true →
    b.dataDir = .inp →
    Plays ⟨b, (List.replicate bits.length readBit).flatten ++ todo, t⟩
      (bits.flatMap fun v => present v ++ clocks 2)
      (bits.flatMap fun v => [.sample v, .pin (.clk true), .pin (.clk false)]) ⟨bits.foldl Block.tookBit b, todo, t⟩
  | [], _, _, _ => .refl _
  | v :: bits, b, hbusy, hdir => by
    let later := (List.replicate bits.length readBit).flatten ++ todo
    have hsample := plays_sampleBit hbusy hdir v (emits (pulse 1) ++ later) t
    have hpulse := plays_emits later t (pulse 1) (b := { b with acc := shiftIn b.acc v }) hbusy
    have hrest := plays_readBits todo t bits (b := b.tookBit v) hbusy hdir
    exact (hsample.trans hpulse).trans hrest

theorem plays_readByte {b : Block} (hbusy : b.busy = true) (v : Byte) (todo : List Micro) (t : Time) :
    Plays ⟨b, readByte ++ todo, t⟩ (answerByte v) (byteTrace v) ⟨b.tookByte v, todo, t⟩ := by
  have hrelease := plays_pin hbusy .release ((List.replicate 8 readBit).flatten ++ todo) t
  have hbits := plays_readBits todo t (wireBits v) (b := b.drive .release) hbusy rfl
  rw [foldl_tookBit_wireBits] at hbits
  exact hrelease.trans hbits

theorem plays_ackByte {b : Block} (hbusy : b.busy = true) (todo : List Micro) (t : Time) :
    Plays ⟨b, ackByte ++ todo, t⟩ (clocks 3) (pinTrace [.data false, .clk true, .clk false])
      ⟨b.driven false, todo, t⟩ :=
  plays_emits todo t [.data false, .clk true, .clk false] hbusy

/-- Two bytes received one after the other, whatever the block's `ACC` was. -/
theorem extractLsb'_append_append (old hi lo : Byte) : (old ++ hi).extractLsb' 0 8 ++ lo = hi ++ lo := by
  rw [BitVec.extractLsb'_append_eq_right]

/-- Two bytes with the first acknowledged: the part `read8` and `read16` share (R172, R173). -/
theorem plays_readTwoBytes {b : Block} (hbusy : b.busy = true) (hi lo : Byte) (todo : List Micro) (t : Time) :
    Plays ⟨b, readByte ++ ackByte ++ readByte ++ todo, t⟩ (answerByte hi ++ clocks 3 ++ answerByte lo)
      (byteTrace hi ++ pinTrace [.data false, .clk true, .clk false] ++ byteTrace lo)
      ⟨{ b.driven false with acc := hi ++ lo, dataDir := .inp }, todo, t⟩ := by
  have hfirst := plays_readByte hbusy hi (ackByte ++ readByte ++ todo) t
  have hack := plays_ackByte (b := b.tookByte hi) hbusy (readByte ++ todo) t
  have hsecond := plays_readByte (b := (b.tookByte hi).driven false) hbusy lo todo t
  have hacc : ((b.tookByte hi).driven false).tookByte lo =
      { b.driven false with acc := hi ++ lo, dataDir := .inp } :=
    congrArg (fun acc => { b.driven false with acc := acc, dataDir := .inp })
      (extractLsb'_append_append (b.acc.extractLsb' 0 8) hi lo)
  rw [hacc] at hsecond
  simpa only [List.append_assoc] using (hfirst.trans hack).trans hsecond

theorem plays_read8 {b : Block} (hbusy : b.busy = true) (st ck : Byte) (todo : List Micro) (t : Time) :
    Plays ⟨b, read8 ++ todo, t⟩ (answerByte st ++ clocks 3 ++ answerByte ck ++ clocks 3)
      (byteTrace st ++ pinTrace [.data false, .clk true, .clk false] ++ byteTrace ck
        ++ pinTrace [.data false, .clk true, .clk false])
      ⟨{ b.driven false with acc := st ++ ck, status := st, cksum := ck }, todo, t⟩ := by
  have hbytes := plays_readTwoBytes hbusy st ck (ackByte ++ .result .latchStatus :: todo) t
  have hack := plays_ackByte (b := { b.driven false with acc := st ++ ck, dataDir := .inp }) hbusy
    (.result .latchStatus :: todo) t
  have hread : read8 ++ todo = readByte ++ ackByte ++ readByte ++ (ackByte ++ .result .latchStatus :: todo) := by
    simp [read8]
  rw [hread, ← latchStatus_append]
  exact (hbytes.trans hack).result

theorem plays_read16 {b : Block} (hbusy : b.busy = true) (raw : Half) (todo : List Micro) (t : Time) :
    Plays ⟨b, read16 ++ todo, t⟩
      (answerByte (raw.extractLsb' 8 8) ++ clocks 3 ++ answerByte (raw.extractLsb' 0 8) ++ clocks 1)
      (byteTrace (raw.extractLsb' 8 8) ++ pinTrace [.data false, .clk true, .clk false]
        ++ byteTrace (raw.extractLsb' 0 8) ++ pinTrace [.data true])
      ⟨{ b.driven true with acc := raw, raw := raw }, todo, t⟩ := by
  have hbytes := plays_readTwoBytes hbusy (raw.extractLsb' 8 8) (raw.extractLsb' 0 8)
    (emits [.data true] ++ .result .latchRaw :: todo) t
  have hraw : raw.extractLsb' 8 8 ++ raw.extractLsb' 0 8 = raw := by
    rw [BitVec.extractLsb'_append_extractLsb'_eq_extractLsb' (by omega)]
    simp
  rw [hraw] at hbytes
  have hlast : Plays ⟨{ b.driven false with acc := raw, dataDir := .inp }, emits [.data true] ++ _, t⟩ (clocks 1) _ _ :=
    plays_emits (.result .latchRaw :: todo) t [.data true] hbusy
  have hread : read16 ++ todo =
      readByte ++ ackByte ++ readByte ++ (emits [.data true] ++ .result .latchRaw :: todo) := by
    simp [read16]
  rw [hread]
  exact (hbytes.trans hlast).result

/-! ## Transactions (R95) -/

/-- The trace of a status read answered at its first poll (R95, R172). -/
def statusReadTrace (t : Time) (st ck : Byte) : List WireEvent :=
  pinTrace (startSeq ++ sendByte 0x07) ++ handshakeTrace t ++ byteTrace st
    ++ pinTrace [.data false, .clk true, .clk false] ++ byteTrace ck
    ++ pinTrace [.data false, .clk true, .clk false]

/-- The trace of a status write answered at its first polls (R95, R192). -/
def statusWriteTrace (t : Time) (new : Byte) : List WireEvent :=
  pinTrace (startSeq ++ sendByte 0x06) ++ handshakeTrace t ++ pinTrace (sendByte new) ++ handshakeTrace t

/-- The trace of a soft reset whose settle delay is over at the first look (R95, R198). -/
def softResetTrace (t : Time) : List WireEvent :=
  pinTrace (startSeq ++ sendByte 0x1E) ++ [.time t, .time (t + 11)]

/-- The block after a status read, before the cached mode is refreshed (R190). -/
def Block.afterStatusRead (b : Block) (st ck : Byte) (t : Time) : Block :=
  { b.driven false with
    state := .decoding, t0 := t, ackCnt := b.ackCnt + 1, acc := st ++ ck, status := st, cksum := ck }

/-- The block after a status write, before its second handshake is counted (R192). -/
def Block.afterStatusWrite (b : Block) (new : Byte) (t : Time) : Block :=
  { b.driven false with
    state := .awaitingAck, t0 := t, ackCnt := b.ackCnt + 1, statw := new, stValid := false, resStale := true }

/-- The block after a measurement (R223). -/
def Block.afterMeasurement (b : Block) (raw : Half) (t : Time) : Block :=
  { b.driven true with
    state := .decoding, t0 := t, ackCnt := b.ackCnt + 1, watchArmed := false, timerArmed := false
    acc := raw, raw := raw }

/-- The block after a soft reset and its settle delay (R198). -/
def Block.afterSoftReset (b : Block) (t : Time) : Block :=
  { b.driven false with state := .commandSent, t0 := t, resStale := true }

/-- The first part of a transaction with a handshake: the command and its handshake, which is counted with the next
event (R143, R160). -/
theorem plays_commandAndAck {b : Block} (hbusy : b.busy = true) (cmd : BitVec 5) (kind : ErrKind) (site : BitVec 3)
    (todo : List Micro) (t : Time) :
    Plays
      ⟨b, .update (.goto .commandSent) :: emits (sendCommand cmd)
        ++ .update (.goto .awaitingAck) :: (awaitAck kind site ++ todo), t⟩
      (clocks 32 ++ answerAck) (pinTrace (startSeq ++ sendByte (commandByte cmd)) ++ handshakeTrace t)
      ⟨b.addressed t, .update .countAck :: todo, t⟩ := by
  have hframe := plays_emitsAndAck (b := b.apply (.goto .commandSent)) hbusy (sendCommand cmd)
    (level := (commandByte cmd).getLsbD 0) rfl kind site todo t
  exact hframe.update hbusy rfl

theorem plays_statusRead {b : Block} (hbusy : b.busy = true) (kind : ErrKind) (st ck : Byte) (todo : List Micro)
    (t : Time) :
    Plays ⟨b, statusRead kind ++ todo, t⟩ (answerStatusRead st ck) (statusReadTrace t st ck)
      ⟨b.afterStatusRead st ck t, .update .refreshMode :: todo, t⟩ := by
  have hframe := plays_commandAndAck hbusy Params.cmdReadStatus kind 1
    (.update (.goto .decoding) :: (read8 ++ .update .refreshMode :: todo)) t
  have hbytes := plays_read8
    (b := ((b.addressed t).apply .countAck).apply (.goto .decoding)) hbusy st ck (.update .refreshMode :: todo) t
  have hall : Plays _ _ _ ⟨b.afterStatusRead st ck t, .update .refreshMode :: todo, t⟩ :=
    hframe.trans ((hbytes.update hbusy rfl).update hbusy rfl)
  have hcommand : commandByte Params.cmdReadStatus = 0x07 := rfl
  simpa only [statusRead, answerStatusRead, statusReadTrace, hcommand, List.append_assoc, List.cons_append,
    List.nil_append] using hall

theorem plays_statusWrite {b : Block} (hbusy : b.busy = true) (new : Byte) (todo : List Micro) (t : Time) :
    Plays ⟨b, statusWrite new ++ todo, t⟩ answerStatusWrite (statusWriteTrace t new)
      ⟨b.afterStatusWrite new t, .update .countAck :: todo, t⟩ := by
  have hframe := plays_commandAndAck hbusy Params.cmdWriteStatus .handshakeTimeout 2
    (.update (.goto .commandSent) :: .update (.stageWrite new) :: (emits (sendByte new)
      ++ .update (.goto .awaitingAck) :: (awaitAck .handshakeTimeout 3 ++ todo))) t
  have hbyte := plays_emitsAndAck
    (b := (((b.addressed t).apply .countAck).apply (.goto .commandSent)).apply (.stageWrite new)) hbusy (sendByte new)
    (level := new.getLsbD 0) rfl .handshakeTimeout 3 todo t
  have hall : Plays _ _ _ ⟨b.afterStatusWrite new t, .update .countAck :: todo, t⟩ :=
    hframe.trans (((hbyte.update hbusy rfl).update hbusy rfl).update hbusy rfl)
  have hcommand : commandByte Params.cmdWriteStatus = 0x06 := rfl
  have hlength : (sendByte new).length = 24 := rfl
  simpa only [statusWrite, answerStatusWrite, statusWriteTrace, hcommand, hlength, List.append_assoc,
    List.cons_append, List.nil_append] using hall

theorem plays_measurement {b : Block} (hbusy : b.busy = true) (cmd : BitVec 5) (siteA siteM : BitVec 3) (raw : Half)
    (todo : List Micro) (t : Time) :
    Plays ⟨b, measurement cmd siteA siteM ++ todo, t⟩ (answerMeasure raw) (measureTrace (commandByte cmd) t raw)
      ⟨b.afterMeasurement raw t, todo, t⟩ := by
  have hframe := plays_commandAndAck hbusy cmd .handshakeTimeout siteA
    (.update (.goto .awaitingMeasurement) :: (awaitReady siteM ++ .update (.goto .decoding) :: (read16 ++ todo))) t
  have hready := plays_awaitReady (b := ((b.addressed t).apply .countAck).apply (.goto .awaitingMeasurement)) hbusy
    siteM (.update (.goto .decoding) :: (read16 ++ todo)) t
  have hbytes := plays_read16
    (b := ((((b.addressed t).apply .countAck).apply (.goto .awaitingMeasurement)).heardReady t).apply (.goto .decoding))
    hbusy raw todo t
  have hall : Plays _ _ _ ⟨b.afterMeasurement raw t, todo, t⟩ :=
    (hframe.trans ((hready.update hbusy rfl).update hbusy rfl)).trans (hbytes.update hbusy rfl)
  simpa only [measurement, answerMeasure, measureTrace, List.append_assoc, List.cons_append, List.nil_append] using hall

/-- The time elapsed is the ticks since, the time base being modular (R12, R25). -/
theorem elapsed_add (t n : Time) : elapsed (t + n) t = n.toNat := by
  rw [elapsed, BitVec.add_comm, BitVec.add_sub_cancel]

theorem plays_softReset {b : Block} (hbusy : b.busy = true) (todo : List Micro) (t : Time) :
    Plays ⟨b, softResetAndSettle ++ todo, t⟩ answerSoftReset (softResetTrace t)
      ⟨b.afterSoftReset t, todo, t + 11⟩ := by
  have hcommand := plays_sendFrame (b := b.apply (.goto .commandSent)) hbusy 0x1E
    (.update .markStale :: .event .latchTime :: .event .settle :: todo) t
  have hlatch := plays_latchTime (b := ((b.apply (.goto .commandSent)).driven false).apply .markStale) hbusy
    (.event .settle :: todo) t
  have hwait := plays_tick (b.afterSoftReset t) (.event .settle :: todo) t 11
  have hsettled : Params.settleMs ≤ elapsed (t + 11) t := (elapsed_add t 11).ge
  have hsettle := plays_settle (b := b.afterSoftReset t) hbusy hsettled todo
  exact (((hcommand.update hbusy rfl).trans (hlatch.update hbusy rfl)).trans hwait).trans hsettle

/-! ## Operations -/

/-- An operation that needs a session, written to `CMD` of an idle constructed block, plays its body after the one step
of its acceptance (R41, R222). -/
theorem takes_operation {s : State} {v : Word} {i : Instr} {first : SeqState} {body : Position} {moves rest : List Act}
    {es : List WireEvent} {q : Moment} (hidle : s.blk.busy = false) (hready : s.blk.ready = true)
    (hscript : s.env.script = .host (.write 0 v) :: (moves ++ rest)) (hdec : decodeHost (v.setWidth 16) = .instr i)
    (hexec : ∀ u, exec i u = issue i true first body u) (hwaits : waitsForEvent body.todo = true)
    (hplays : Plays ⟨s.blk.accept (encode i) body first, body.todo, s.env.now⟩ moves es q) :
    ∃ t, Takes (1 + moves.length) s es t ∧ t.At q rest := by
  have haccepts : issue i true first body (s.movedOn (moves ++ rest)) =
      .next { s.movedOn (moves ++ rest) with blk := s.blk.accept (encode i) body first } := by
    simp [issue, State.movedOn, hidle, hready]
  have hstep := (step_hostWord hscript hdec).trans ((hexec _).trans haccepts)
  obtain ⟨t, htakes, ht⟩ := hplays { s.movedOn (moves ++ rest) with blk := s.blk.accept (encode i) body first } rest
    ⟨(trail_of_waitsForEvent hwaits (s.blk.accept (encode i) body first)).symm, rfl, rfl⟩
  rw [Nat.add_comm]
  exact ⟨t, .step hstep htakes, ht⟩

section

variable {b : Block} (hbusy : b.busy = true) (t : Time)

include hbusy

theorem plays_getStatusBody (st ck : Byte) :
    Plays ⟨b, (bodyOf callGetStatus).todo, t⟩ (answerStatusRead st ck) (statusReadTrace t st ck)
      ⟨b.afterStatusRead st ck t, [.update .refreshMode, .update .complete], t⟩ :=
  .call (i := .wReadStatus) (plays_statusRead hbusy b.step.kind st ck [.update .complete] t) rfl hbusy rfl

/-- The byte written is computed from the one just read, and from the operands of the call (R192). -/
theorem plays_setStatusBitBody (st ck : Byte) :
    Plays ⟨b, (bodyOf callSetStatusBit).todo, t⟩ (answerStatusRead st ck ++ answerStatusWrite)
      (statusReadTrace t st ck ++ statusWriteTrace t (newStatus st b.step.bit b.step.val))
      ⟨((b.afterStatusRead st ck t).apply .refreshMode).afterStatusWrite (newStatus st b.step.bit b.step.val) t,
        [.update .countAck, .update .complete], t⟩ := by
  have hread := plays_statusRead hbusy b.step.kind st ck
    [.event (.command (commandByte Params.cmdWriteStatus)), .update .complete] t
  have hwrite := plays_statusWrite (b := (b.afterStatusRead st ck t).apply .refreshMode) hbusy
    (newStatus st b.step.bit b.step.val) [.update .complete] t
  have hsecond := Plays.call (i := .wWriteStatus) (byte := commandByte Params.cmdWriteStatus) hwrite rfl hbusy rfl
  exact (Plays.call (i := .wReadStatus) hread rfl hbusy rfl).trans (hsecond.update hbusy rfl)

theorem plays_readTempBody (raw : Half) :
    Plays ⟨b, readTempBody.todo, t⟩ (answerMeasure raw) (measureTrace 0x03 t raw)
      ⟨b.afterMeasurement raw t, [.update (.calTemp .cached), .update .complete], t⟩ :=
  .call (i := .wMeasureTemp)
    (plays_measurement hbusy Params.cmdMeasureTemp 4 6 raw [.update (.calTemp .cached), .update .complete] t)
    rfl hbusy rfl

theorem plays_readHumidSuppliedBody (raw : Half) :
    Plays ⟨b, readHumidSuppliedBody.todo, t⟩ (answerMeasure raw) (measureTrace 0x05 t raw)
      ⟨b.afterMeasurement raw t, [.update (.calHumid .cached), .update .complete], t⟩ :=
  .call (i := .wMeasureRh)
    (plays_measurement hbusy Params.cmdMeasureRh 5 7 raw [.update (.calHumid .cached), .update .complete] t)
    rfl hbusy rfl

/-- The nested temperature measurement comes first (R227). -/
theorem plays_readHumidNestedBody (rawT rawH : Half) :
    Plays ⟨b, readHumidNestedBody.todo, t⟩ (answerMeasure rawT ++ answerMeasure rawH)
      (measureTrace 0x03 t rawT ++ measureTrace 0x05 t rawH)
      ⟨(((((b.apply (.nest true)).afterMeasurement rawT t).apply (.calTemp .cached)).apply
        (.nest false)).afterMeasurement rawH t), [.update (.calHumid .cached), .update .complete], t⟩ := by
  have htemp := plays_measurement (b := b.apply (.nest true)) hbusy Params.cmdMeasureTemp 4 6 rawT
    (.update (.calTemp .cached) :: .update (.nest false) ::
      (callMeasureRh ++ [.update (.calHumid .cached), .update .complete])) t
  have hhumid := plays_measurement
    (b := (((b.apply (.nest true)).afterMeasurement rawT t).apply (.calTemp .cached)).apply (.nest false)) hbusy
    Params.cmdMeasureRh 5 7 rawH [.update (.calHumid .cached), .update .complete] t
  have hfirst := Plays.call (i := .wMeasureTemp) (byte := commandByte Params.cmdMeasureTemp) htemp rfl hbusy rfl
  have hsecond := Plays.call (i := .wMeasureRh) (byte := commandByte Params.cmdMeasureRh) hhumid rfl hbusy rfl
  exact (hfirst.update hbusy rfl).trans ((hsecond.update hbusy rfl).update hbusy rfl)

theorem plays_softResetBody :
    Plays ⟨b, (bodyOf callSoftReset).todo, t⟩ answerSoftReset (softResetTrace t)
      ⟨b.afterSoftReset t, [.update .complete], t + 11⟩ :=
  .call (i := .wSoftReset) (plays_softReset hbusy [.update .complete] t) rfl hbusy rfl

end

/-! ## Clock pulses (R95) -/

theorem clockPulses_append (es fs : List WireEvent) : clockPulses (es ++ fs) = clockPulses es + clockPulses fs :=
  List.count_append ..

theorem clockPulses_statusReadTrace (t : Time) (st ck : Byte) : clockPulses (statusReadTrace t st ck) = 29 := rfl

theorem clockPulses_statusWriteTrace (t : Time) (new : Byte) : clockPulses (statusWriteTrace t new) = 20 := rfl

theorem clockPulses_measureTrace (byte : Byte) (t : Time) (raw : Half) :
    clockPulses (measureTrace byte t raw) = 28 := rfl

theorem clockPulses_softResetTrace (t : Time) : clockPulses (softResetTrace t) = 10 := rfl

/-! ## The command words -/

theorem decodeHost_setStatusBit (bit : BitVec 3) (val : Bool) :
    decodeHost ((0x4000#32 ||| (BitVec.ofBool val).setWidth 32 <<< 9 ||| bit.setWidth 32 <<< 6).setWidth 16) =
      .instr (.setStatusBit bit.toNat val) := by
  revert bit val; decide

theorem decodeHost_readTemp (face : Bool) :
    decodeHost ((if face then 0x9800 else 0x9000 : Word).setWidth 16) = .instr (.readTemp face) := by
  cases face <;> decide

theorem decodeHost_readHumidSupplied (face : Bool) :
    decodeHost ((if face then 0xAC00 else 0xA400 : Word).setWidth 16) = .instr (.readHumid face true) := by
  cases face <;> decide

theorem decodeHost_readHumidNested (face : Bool) :
    decodeHost ((if face then 0xA800 else 0xA000 : Word).setWidth 16) = .instr (.readHumid face false) := by
  cases face <;> decide

/-! ## The traces of whole operations -/

section

variable {s : State} {rest : List Act} (hidle : s.blk.busy = false) (hready : s.blk.ready = true)

include hidle hready

theorem trace_getStatus {st ck : Byte}
    (hscript : s.env.script = .host (.write 0 0x3000) :: (answerStatusRead st ck ++ rest)) :
    trace (1 + (answerStatusRead st ck).length) s = statusReadTrace s.env.now st ck := by
  obtain ⟨t, htakes, -⟩ := takes_operation (i := .getStatus) hidle hready hscript rfl (fun _ => rfl) rfl
    (plays_getStatusBody rfl s.env.now st ck)
  exact htakes.trace_eq

theorem trace_setStatusBit {bit : BitVec 3} {val : Bool} {st ck : Byte}
    (hscript : s.env.script =
      .host (.write 0 (0x4000#32 ||| (BitVec.ofBool val).setWidth 32 <<< 9 ||| bit.setWidth 32 <<< 6)) ::
        (answerStatusRead st ck ++ answerStatusWrite ++ rest)) :
    trace (1 + (answerStatusRead st ck ++ answerStatusWrite).length) s =
      statusReadTrace s.env.now st ck ++ statusWriteTrace s.env.now (newStatus st bit val) := by
  obtain ⟨t, htakes, -⟩ := takes_operation hidle hready hscript (decodeHost_setStatusBit bit val) (fun _ => rfl) rfl
    (plays_setStatusBitBody rfl s.env.now st ck)
  have hbit : BitVec.ofNat 3 bit.toNat = bit := by simp
  rw [htakes.trace_eq, accept_step, bodyOf, hbit]

theorem trace_readTemp {face : Bool} {raw : Half}
    (hscript : s.env.script = .host (.write 0 (if face then 0x9800 else 0x9000)) :: (answerMeasure raw ++ rest)) :
    trace (1 + (answerMeasure raw).length) s = measureTrace 0x03 s.env.now raw := by
  obtain ⟨t, htakes, -⟩ := takes_operation hidle hready hscript (decodeHost_readTemp face) (fun _ => rfl) rfl
    (plays_readTempBody rfl s.env.now raw)
  exact htakes.trace_eq

theorem trace_readHumidSupplied {face : Bool} {raw : Half}
    (hscript : s.env.script = .host (.write 0 (if face then 0xAC00 else 0xA400)) :: (answerMeasure raw ++ rest)) :
    trace (1 + (answerMeasure raw).length) s = measureTrace 0x05 s.env.now raw := by
  obtain ⟨t, htakes, -⟩ := takes_operation hidle hready hscript (decodeHost_readHumidSupplied face) (fun _ => rfl)
    rfl (plays_readHumidSuppliedBody rfl s.env.now raw)
  exact htakes.trace_eq

theorem trace_readHumidNested {face : Bool} {rawT rawH : Half}
    (hscript : s.env.script = .host (.write 0 (if face then 0xA800 else 0xA000)) ::
      (answerMeasure rawT ++ answerMeasure rawH ++ rest)) :
    trace (1 + (answerMeasure rawT ++ answerMeasure rawH).length) s =
      measureTrace 0x03 s.env.now rawT ++ measureTrace 0x05 s.env.now rawH := by
  obtain ⟨t, htakes, -⟩ := takes_operation hidle hready hscript (decodeHost_readHumidNested face) (fun _ => rfl) rfl
    (plays_readHumidNestedBody rfl s.env.now rawT rawH)
  exact htakes.trace_eq

theorem trace_softReset (hscript : s.env.script = .host (.write 0 0x2000) :: (answerSoftReset ++ rest)) :
    trace (1 + answerSoftReset.length) s = softResetTrace s.env.now := by
  obtain ⟨t, htakes, -⟩ := takes_operation (i := .softReset) hidle hready hscript rfl (fun _ => rfl) rfl
    (plays_softResetBody rfl s.env.now)
  exact htakes.trace_eq

end

/-- Settles O43: each trace is the one its body plays, and its pulses are those of its transactions. -/
theorem transactionTracesAndPulses : Obligations.TransactionTracesAndPulses := by
  refine ⟨fun s st ck rest hidle hready h => ?getStatus, fun s bit val st ck rest hidle hready h => ?setStatusBit,
    fun s face raw rest hidle hready h => ?readTemp, fun s face raw rest hidle hready h => ?readHumidSupplied,
    fun s face rawT rawH rest hidle hready h => ?readHumidNested, fun s rest hidle hready h => ?softReset⟩
  case getStatus =>
    rw [trace_getStatus hidle hready h]
    exact ⟨rfl, clockPulses_statusReadTrace ..⟩
  case setStatusBit =>
    rw [trace_setStatusBit hidle hready h, clockPulses_append, clockPulses_statusReadTrace,
      clockPulses_statusWriteTrace]
    exact ⟨List.drop_left' rfl, rfl⟩
  case readTemp =>
    rw [trace_readTemp hidle hready h]
    exact ⟨rfl, clockPulses_measureTrace ..⟩
  case readHumidSupplied =>
    rw [trace_readHumidSupplied hidle hready h]
    exact ⟨rfl, clockPulses_measureTrace ..⟩
  case readHumidNested =>
    rw [trace_readHumidNested hidle hready h, clockPulses_append, clockPulses_measureTrace, clockPulses_measureTrace]
    exact ⟨rfl, rfl⟩
  case softReset =>
    rw [trace_softReset hidle hready h]
    exact ⟨rfl, clockPulses_softResetTrace ..⟩

end Sys2Proof.Machine
end

section
/-! Encoding and decoding invert each other, in both formats (30_encoding.md rules R91, R94, R99, R100 and R102): the
fields of an assembled host word are the fields it was assembled from, so a word decodes to an instruction exactly when
it is that well-formed instruction's encoding; and the legal host words counted (R100). -/

namespace Sys2Proof

/-! ## The fields read back -/

section

variable (opc : BitVec 4) (face tv val : Bool) (bit : BitVec 3) (res : Bool)

@[simp] theorem faceOf_hostFields : faceOf (hostFields opc face tv val bit res) = face :=
  getLsbD_hostFields opc face tv val bit res 11

@[simp] theorem tvOf_hostFields : tvOf (hostFields opc face tv val bit res) = tv :=
  getLsbD_hostFields opc face tv val bit res 10

@[simp] theorem valOf_hostFields : valOf (hostFields opc face tv val bit res) = val :=
  getLsbD_hostFields opc face tv val bit res 9

@[simp] theorem resOf_hostFields : resOf (hostFields opc face tv val bit res) = res :=
  getLsbD_hostFields opc face tv val bit res 5

@[simp] theorem bitOf_hostFields : bitOf (hostFields opc face tv val bit res) = bit := by
  apply BitVec.eq_of_getLsbD_eq
  intro i hi
  rw [bitOf, BitVec.getLsbD_extractLsb', getLsbD_hostFields, decide_eq_true hi, Bool.true_and, if_neg (by omega),
    if_neg (by omega), if_pos (by omega), Nat.add_sub_cancel_left]

end

/-! ## Format `H` -/

/-- The bits a host operation's row leaves free are the only ones set beside `OPC` in its encoding (R94, R100). -/
theorem encode_unused_zero {i : Instr} (h : i.format = .host) :
    encode i &&& ~~~(0xF000#16 ||| ~~~rowMask i) = 0 := by
  obtain ⟨hmem, hrow⟩ := encode_matches_row h
  exact (fields_of_row hmem hrow).2

/-- The encoding of a well-formed host operation decodes to it (R94, R100). -/
theorem decodeHost_encode {i : Instr} (hformat : i.format = .host) (hwf : i.wellFormed = true) :
    decodeHost (encode i) = .instr i := by
  have hzero := encode_unused_zero hformat
  cases i with
  | init | softReset | getStatus | setLowRes | setHighRes => rfl
  | setStatusBit bit val =>
    have hbit : bit < 8 := of_decide_eq_true hwf
    have hmod : bit % 8 = bit := Nat.mod_eq_of_lt hbit
    simpa [decodeHost, ifUnusedZero, encode, rowMask, hmod] using hzero
  | setHeater _ | setOtpReload _ | readTemp _ | readHumid _ _ | calTemp _ | calHumid _ =>
    simpa [decodeHost, ifUnusedZero, encode, rowMask] using hzero
  | wMeasureTemp | wMeasureRh | wReadStatus | wWriteStatus | wSoftReset => cases hformat

/-- The decoder answers only well-formed host operations: `BIT` has three bits (R94, R107). -/
theorem wellFormed_of_decodeHost {w : Half} {i : Instr} (h : decodeHost w = .instr i) : i.wellFormed = true := by
  unfold decodeHost ifUnusedZero at h
  split at h
  case h_4 =>
    split at h
    case isFalse => cases h
    cases h
    exact decide_eq_true (bitOf w).isLt
  case h_13 => cases h
  all_goals
    split at h
    case isFalse => cases h
    cases h
    rfl

/-- The word of a well-formed host operation is the only one that stands for it (R94, R100). -/
theorem decodeHost_eq_instr_iff {w : Half} {i : Instr} :
    decodeHost w = .instr i ↔ (i.format = .host ∧ i.wellFormed = true) ∧ encode i = w := by
  constructor
  · intro h
    exact ⟨⟨Machine.decodeHost_format h, wellFormed_of_decodeHost h⟩, encode_of_decodeHost h⟩
  · rintro ⟨⟨hformat, hwf⟩, rfl⟩
    exact decodeHost_encode hformat hwf

/-! ## Format `W` -/

/-- The byte of a wire command is the only one that stands for it (R91, R99, R102). -/
theorem decodeWire_eq_instr_iff {byte : Byte} {i : Instr} :
    decodeWire byte = .instr i ↔ i.format = .wire ∧ encode i = byte.setWidth 16 := by
  constructor
  · intro h
    rcases Machine.decodeWire_instr h with
      ⟨rfl, rfl⟩ | ⟨rfl, rfl⟩ | ⟨rfl, rfl⟩ | ⟨rfl, rfl⟩ | ⟨rfl, rfl⟩ <;> exact ⟨rfl, rfl⟩
  · rintro ⟨hformat, hencode⟩
    have hbyte : byte = (encode i).setWidth 8 := by simp [hencode]
    cases i with
    | wMeasureTemp | wMeasureRh | wReadStatus | wWriteStatus | wSoftReset => rw [hbyte]; rfl
    | _ => cases hformat

theorem wellFormed_of_wire {i : Instr} (h : i.format = .wire) : i.wellFormed = true := by
  cases i with
  | wMeasureTemp | wMeasureRh | wReadStatus | wWriteStatus | wSoftReset => rfl
  | _ => cases h

/-! ## The words of the opcode table -/

theorem toOption_eq_some_iff {d : Decoded} {i : Instr} : d.toOption = some i ↔ d = .instr i := by
  cases d <;> simp [Decoded.toOption]

@[simp] theorem decodeTableWord_host (w : Nat) :
    decodeTableWord 16 w = (decodeHost (BitVec.ofNat 16 w)).toOption := rfl

@[simp] theorem decodeTableWord_wire (w : Nat) :
    decodeTableWord 8 w = (decodeWire (BitVec.ofNat 8 w)).toOption := rfl

/-- Bits decode as a host word or as a wire byte; no other width has a format (R104). -/
theorem decodeTableWord_eq_some_iff {nbits w : Nat} {i : Instr} :
    decodeTableWord nbits w = some i ↔
      (nbits = 16 ∧ decodeHost (BitVec.ofNat 16 w) = .instr i) ∨
        (nbits = 8 ∧ decodeWire (BitVec.ofNat 8 w) = .instr i) := by
  by_cases h16 : nbits = 16
  · subst h16
    simp [toOption_eq_some_iff]
  by_cases h8 : nbits = 8
  · subst h8
    simp [toOption_eq_some_iff]
  · simp [decodeTableWord, decodeBits, Decoded.toOption, h16, h8]

/-- Settles O2: in each format the encoding is the word that stands for the instruction. -/
theorem decodeInvertsEncode : Obligations.DecodeInvertsEncode := by
  intro i hwf
  rw [decodeTableWord_eq_some_iff]
  cases hformat : i.format with
  | host =>
    have hdec := decodeHost_encode hformat hwf
    exact .inl ⟨rfl, by rwa [BitVec.ofNat_toNat, BitVec.setWidth_eq]⟩
  | wire =>
    have hnarrow : encode i = ((encode i).setWidth 8).setWidth 16 := by
      cases i with
      | wMeasureTemp | wMeasureRh | wReadStatus | wWriteStatus | wSoftReset => rfl
      | _ => cases hformat
    have hdec := decodeWire_eq_instr_iff.mpr ⟨hformat, hnarrow⟩
    exact .inr ⟨rfl, by rwa [BitVec.ofNat_toNat]⟩

/-- Settles O3: in each format the word that stands for an instruction is its encoding. -/
theorem encodeInvertsDecode : Obligations.EncodeInvertsDecode := by
  intro nbits w i hw hdec
  rcases decodeTableWord_eq_some_iff.mp hdec with ⟨rfl, hhost⟩ | ⟨rfl, hwire⟩
  · obtain ⟨⟨hformat, hwf⟩, hencode⟩ := decodeHost_eq_instr_iff.mp hhost
    exact ⟨by rw [hencode, BitVec.toNat_ofNat, Nat.mod_eq_of_lt hw], by rw [hformat]; rfl, hwf⟩
  · obtain ⟨hformat, hencode⟩ := decodeWire_eq_instr_iff.mp hwire
    have hword : (encode i).toNat = w := by
      rw [hencode, BitVec.toNat_setWidth_of_le (by omega), BitVec.toNat_ofNat, Nat.mod_eq_of_lt hw]
    exact ⟨hword, by rw [hformat]; rfl, wellFormed_of_wire hformat⟩

/-! ## The legal host words (R100) -/

/-- No two rows have the same opcode (R100). -/
theorem hostRows_opcodes_nodup : (hostRows.map fun r => opcOf r.1).Nodup := by decide

/-- The rows are disjoint: a word that matches two has the opcode of both (R100). -/
theorem row_unique {w : Half} {r q : Half × Half} (hr : r ∈ hostRows) (hq : q ∈ hostRows) (hwr : w &&& r.2 = r.1)
    (hwq : w &&& q.2 = q.1) : r = q := by
  obtain ⟨hopcr, -⟩ := fields_of_row hr hwr
  obtain ⟨hopcq, -⟩ := fields_of_row hq hwq
  exact List.inj_on_of_nodup_map hostRows_opcodes_nodup hr hq (hopcr.symm.trans hopcq)

/-- A legal word matches the row of the operation it decodes to (R100). -/
theorem decodeHost_matches_row {w : Half} {i : Instr} (h : decodeHost w = .instr i) : w &&& rowMask i = rowMatch i := by
  obtain ⟨-, hrow⟩ := encode_matches_row (Machine.decodeHost_format h)
  rwa [encode_of_decodeHost h] at hrow

/-- The host operations with their operands, each once: those without an operand, `SET_STATUS_BIT` at each index and
value, and those whose operands are one or two flags (R100). -/
def hostInstrs : List Instr :=
  [.init, .softReset, .getStatus, .setLowRes, .setHighRes]
    ++ (List.range 8).flatMap (fun bit => [.setStatusBit bit false, .setStatusBit bit true])
    ++ [false, true].flatMap fun flag =>
      [.setHeater flag, .setOtpReload flag, .readTemp flag, .readHumid flag false, .readHumid flag true, .calTemp flag,
        .calHumid flag]

theorem hostInstrs_nodup : hostInstrs.Nodup := by decide

/-- The list has the well-formed host operations and nothing else. -/
theorem mem_hostInstrs_iff {i : Instr} : i ∈ hostInstrs ↔ i.format = .host ∧ i.wellFormed = true := by
  have hsound : ∀ j ∈ hostInstrs, j.format = .host ∧ j.wellFormed = true := by decide
  refine ⟨hsound i, fun ⟨hformat, hwf⟩ => ?_⟩
  cases i with
  | setStatusBit bit val =>
    have hbit : bit < 8 := of_decide_eq_true hwf
    cases val <;> simp [hostInstrs, hbit]
  | readHumid face tv => cases face <;> cases tv <;> decide
  | setHeater flag | setOtpReload flag | readTemp flag | calTemp flag | calHumid flag => cases flag <;> decide
  | init | softReset | getStatus | setLowRes | setHighRes => decide
  | wMeasureTemp | wMeasureRh | wReadStatus | wWriteStatus | wSoftReset => cases hformat

/-- The legal words are the encodings of the listed operations (R100). -/
theorem decodeHost_iff_mem (w : Half) : (∃ i, decodeHost w = .instr i) ↔ w ∈ hostInstrs.map encode := by
  simp only [List.mem_map, decodeHost_eq_instr_iff, mem_hostInstrs_iff]

/-- Different operations have different words, as each word decodes to its own. -/
theorem hostWords_nodup : (hostInstrs.map encode).Nodup := by
  refine List.Nodup.map_on (fun i hi j hj hword => ?_) hostInstrs_nodup
  have hdec (k : Instr) (hk : k ∈ hostInstrs) : decodeHost (encode k) = .instr k :=
    decodeHost_eq_instr_iff.mpr ⟨mem_hostInstrs_iff.mp hk, rfl⟩
  exact Decoded.instr.inj ((hdec i hi).symm.trans ((congrArg decodeHost hword).trans (hdec j hj)))

/-- Settles O4: the legal words are listed as the encodings of the operations at each value of their operands. -/
theorem legalWordsMatchOneRow : Obligations.LegalWordsMatchOneRow :=
  ⟨decodeHost_iff_row, fun _ _ => decodeHost_matches_row, fun _ _ _ => row_unique,
    hostInstrs.map encode, rfl, hostWords_nodup, decodeHost_iff_mem⟩

/-- Settles O1: the decoder evaluated on the words of the vectors. -/
theorem wordsOfTheSpecDecode : Obligations.WordsOfTheSpecDecode := by
  unfold Obligations.WordsOfTheSpecDecode
  decide

end Sys2Proof
end

section
/-! What becomes of a command (30_encoding.md rules R95, R99 and R101, 44_status_manager.md rules R190 and R200): a
refused host command, the first step of a wire command, and `GET_STATUS` from its acceptance to its end. -/

namespace Sys2Proof.Machine

/-! ## Refusal -/

/-- R101's grounds of refusal each break R41's condition of acceptance. -/
theorem not_acceptable {b : Block} {v : Word}
    (h : (∀ r ∈ hostRows, v.extractLsb' 0 16 &&& r.2 ≠ r.1) ∨ b.busy = true ∨
      (b.ready = false ∧ v.extractLsb' 12 4 ≠ 0x1 ∧ v.extractLsb' 12 4 ≠ 0xB ∧ v.extractLsb' 12 4 ≠ 0xC)) :
    ¬acceptable b v := by
  rintro ⟨hidle, ⟨r, hr, hrow⟩, hready⟩
  rcases h with hillegal | hbusy | ⟨hunready, hinit, htemp, hhumid⟩
  · exact hillegal r hr hrow
  · cases hidle.symm.trans hbusy
  · rcases hready with hready | hopc | hopc | hopc
    · cases hready.symm.trans hunready
    · exact hinit hopc
    · exact htemp hopc
    · exact hhumid hopc

/-- Settles O5: on each ground the write is not acceptable, and so refused. -/
theorem refusedCommandOnlySetsReject : Obligations.RefusedCommandOnlySetsReject :=
  fun _ _ _ h hground => step_unacceptable h (not_acceptable hground)

/-! ## The first step of a wire command -/

/-- Every wire command's transaction goes to `CommandSent` and drives DATA high first; the step performs that much of it
(R95, R141, R143, R233). -/
theorem exec_wire_begins {i : Instr} (h : i.format = .wire) (s : State) :
    exec i s = .next
      { blk := { s.blk with
          dataOut := true, dataDir := .out, state := .commandSent
          step := { s.blk.step with todo := (transactionOf i s.blk).drop 2 ++ s.blk.step.todo } }
        env := { s.env with event := some (.pin (.data true)) } } := by
  rw [exec_wire h]
  cases i with
  | wMeasureTemp | wMeasureRh | wReadStatus | wWriteStatus | wSoftReset => exact beginTransaction_start .commandSent _ s
  | _ => cases h

/-- Settles O12: the five transactions begin alike. -/
theorem wireCommandsBegin : Obligations.WireCommandsBegin :=
  fun s => ⟨exec_wire_begins (i := .wMeasureTemp) rfl s, exec_wire_begins (i := .wMeasureRh) rfl s,
    exec_wire_begins (i := .wReadStatus) rfl s, exec_wire_begins (i := .wWriteStatus) rfl s,
    exec_wire_begins (i := .wSoftReset) rfl s⟩

/-! ## `GET_STATUS` -/

/-- Acceptance of a word that copies no operand and does not construct clears the last operation's record and begins the
body (R222). -/
theorem accept_eq_begun {word : Half} (htemp : takesArgTemp word = false) (hraw : takesArgRaw word = false)
    (hinit : isConstruction word = false) (b : Block) (body : Position) (first : SeqState) :
    b.accept word body first = b.begun word (faceOf word) first body := by
  simp [Block.accept, Block.begun, Block.cleared, htemp, hraw, hinit]

/-- Settles O36: the body of `GET_STATUS` plays one status read, and its last step refreshes the mode and completes. -/
theorem getStatusRefreshesTheMode : Obligations.GetStatusRefreshesTheMode := by
  intro s st ck rest hidle hready hscript
  obtain ⟨t, htakes, hblk, hnow, hrest⟩ := takes_operation (i := .getStatus) hidle hready hscript rfl (fun _ => rfl)
    rfl (plays_getStatusBody rfl s.env.now st ck)
  rw [accept_eq_begun rfl rfl rfl] at hblk
  exact ⟨t, htakes.runsTo, hrest, hnow, hblk⟩

end Sys2Proof.Machine
end

section
/-! Single wire events (40_bus_primitives.md rules R121 to R125): what the sequencer's turn does when its position
stands at an event, and that the assignments after the event leave alone what wire events write (R233). -/

namespace Sys2Proof.Machine

/-- The elements that only wire events write: both lines, the bits received and the start of the wait (R21, R31,
R170). -/
structure Block.WireElements (b c : Block) : Prop where
  clkOut : c.clkOut = b.clkOut
  clkDir : c.clkDir = b.clkDir
  dataOut : c.dataOut = b.dataOut
  dataDir : c.dataDir = b.dataDir
  acc : c.acc = b.acc
  t0 : c.t0 = b.t0

theorem Block.WireElements.refl (b : Block) : b.WireElements b := ⟨rfl, rfl, rfl, rfl, rfl, rfl⟩

/-- The assignments that belong to an event write none of the elements the events write. -/
theorem trail_wireElements (todo : List Micro) (b : Block) : b.WireElements (b.trail todo) := by
  refine trail_keeps (P := b.WireElements) (fun c u h => ?apply) (fun c kind site h => { h with })
    (fun c todo h => { h with }) todo b (.refl b)
  case apply => cases u <;> exact { h with }

/-- On its turn a running sequencer that stands at an event which is no call performs it (R32, R120). -/
theorem step_standing {s : State} {e : SeqEvent} {todo : List Micro} {rest : List Act} (h : s.env.script = .seq :: rest)
    (hbusy : s.blk.busy = true) (hat : s.blk.step.todo = .event e :: todo) (hcall : ∀ byte, e ≠ .command byte) :
    step s = (s.movedOn rest).perform todo e := by
  have hlead : s.blk.lead s.blk.step.todo = s.blk.moveTo s.blk.step.todo := by rw [hat, lead_event]
  have hstep := step_event h hbusy (by rw [hlead]; exact hat) hcall
  rw [hlead] at hstep
  exact hstep

/-- Where the event makes the block `b` and is `ev` on the wire, the turn answers a next state with that event: the
assignments after it keep what `b` holds on the wire, and where another event follows there are none (R233). -/
theorem step_performed {s : State} {e : SeqEvent} {b : Block} {ev : WireEvent} {todo : List Micro} {rest : List Act}
    (h : s.env.script = .seq :: rest) (hbusy : s.blk.busy = true) (hat : s.blk.step.todo = .event e :: todo)
    (hcall : ∀ byte, e ≠ .command byte)
    (hperform : (s.movedOn rest).perform todo e = (s.movedOn rest).performed b ev todo) :
    ∃ t, step s = .next t ∧ t.env = { (s.movedOn rest).env with event := some ev } ∧ b.WireElements t.blk ∧
      ∀ e' more, todo = .event e' :: more → t.blk = b.moveTo todo := by
  have hstep := (step_standing h hbusy hat hcall).trans hperform
  refine ⟨_, hstep, rfl, trail_wireElements todo b, ?_⟩
  rintro e' more rfl
  exact trail_event b e' more

/-- Settles O21: each of the three pin events writes its own line, and nothing after it in the same step touches a
line. -/
theorem pinEventsWriteTheLines : Obligations.PinEventsWriteTheLines := by
  intro s todo rest h hbusy
  refine ⟨fun v hat => ?clock, fun v hat => ?data, fun hat => ?release⟩
  all_goals
    obtain ⟨t, hstep, henv, hwire, hwhole⟩ := step_performed h hbusy hat nofun rfl
    exact ⟨t, hstep, henv, hwire.clkOut, hwire.clkDir, hwire.dataOut, hwire.dataDir, hwhole⟩

/-- Settles O22: with DATA an input the sample is the level of the line, which goes into `ACC`; the time read goes into
`T0`. -/
theorem inputEventsReadTheEnvironment : Obligations.InputEventsReadTheEnvironment := by
  intro s todo rest h hbusy
  refine ⟨fun hat hinp => ⟨lineData_inp hinp, ?sample⟩, fun hat => ?time⟩
  case sample =>
    have hsampled : (s.movedOn rest).perform todo .sampleBit = (s.movedOn rest).performed
        { s.blk with acc := shiftIn s.blk.acc (!s.env.sensorPull) } (.sample (!s.env.sensorPull)) todo := by
      rw [State.perform, sampled_inp (s.movedOn rest) _ hinp]
      rfl
    obtain ⟨t, hstep, henv, hwire, hwhole⟩ := step_performed h hbusy hat nofun hsampled
    exact ⟨t, hstep, henv, hwire.acc, hwhole⟩
  case time =>
    obtain ⟨t, hstep, henv, hwire, hwhole⟩ := step_performed h hbusy hat nofun rfl
    exact ⟨t, hstep, henv, hwire.t0, hwhole⟩

end Sys2Proof.Machine
end

section
/-! The frame encoder (41_frame_encoder.md rules R141 to R144): a call sends the frame of its command byte whether or
not the byte is a wire command the block knows (R102, R143), and the trace of a frame decodes to the byte. -/

namespace Sys2Proof.Machine

/-! ## Decoding a frame (R144) -/

/-- Each sent bit is the level of DATA at its own clock pulse (R142). -/
theorem clockedBits_flatMap_sendBit : ∀ (level : Bool) (bits : List Bool),
    clockedBits level (bits.flatMap sendBit) = bits
  | _, [] => rfl
  | _, v :: bits => congrArg (v :: ·) (clockedBits_flatMap_sendBit v bits)

/-- The bits of a byte in the order of the wire make the byte again (R64). -/
theorem byteOfBits_wireBits (byte : Byte) : byteOfBits (wireBits byte) = byte := by
  apply BitVec.eq_of_getLsbD_eq
  intro i hi
  simp only [byteOfBits, wireBits, List.foldl_cons, List.foldl_nil, BitVec.getLsbD_append, BitVec.getLsbD_extractLsb',
    BitVec.getLsbD_ofBool]
  interval_cases i <;> simp

theorem decodeTrace_sendFrame (byte : Byte) : decodeTrace (sendFrame byte) = byte := by
  have hdrop : (sendFrame byte).drop 8 = (wireBits byte).flatMap sendBit := List.drop_left' rfl
  rw [decodeTrace, hdrop, clockedBits_flatMap_sendBit, byteOfBits_wireBits]

/-! ## A call sends the frame of its byte (R143) -/

/-- A transaction begins with `STATE` set and the frame of its command byte (R95, R143). -/
theorem transactionOf_frame {byte : Byte} {i : Instr} (hdec : decodeWire byte = .instr i) (b : Block) :
    ∃ more, transactionOf i b = .update (.goto .commandSent) :: (emits (sendFrame byte) ++ more) := by
  rcases decodeWire_instr hdec with ⟨rfl, rfl⟩ | ⟨rfl, rfl⟩ | ⟨rfl, rfl⟩ | ⟨rfl, rfl⟩ | ⟨rfl, rfl⟩ <;> exact ⟨_, rfl⟩

/-- Moving the position to where it stands changes nothing. -/
theorem moveTo_standing {b : Block} {todo : List Micro} (h : b.step.todo = todo) : b.moveTo todo = b := by
  rw [← h]
  rfl

/-- The call of a byte that is no wire command has the frame's first event as its step (R102, R143). -/
theorem step_rejectedByte {s : State} {byte : Byte} {why : DecodeError} {todo : List Micro} {rest : List Act}
    (h : s.env.script = .seq :: rest) (hbusy : s.blk.busy = true)
    (htodo : s.blk.step.todo = .event (.command byte) :: todo) (hdec : decodeWire byte = .rejected why) :
    step s = (s.movedOn rest).performPins todo (sendFrame byte) := by
  have hlead : (s.movedOn rest).blk.lead (s.movedOn rest).blk.step.todo = s.blk := by
    rw [State.movedOn, htodo, lead_event, moveTo_standing htodo]
  have hfetch : fetchSeq (s.movedOn rest) = .other (advance (s.movedOn rest)) := by
    have hrunning : (s.movedOn rest).blk.busy = true := hbusy
    simp only [fetchSeq, hrunning, if_true, hlead, htodo, hdec]
  rw [step_of_fetch_other ((fetch_seq_movedOn h).trans hfetch), advance, hlead, htodo]
  rfl

/-- The call of a byte that is no wire command plays as the byte's frame before what is left of the operation. -/
theorem Plays.rejectedCall {b : Block} {byte : Byte} {why : DecodeError} {todo : List Micro} {t : Time}
    {moves : List Act} {es : List WireEvent} {q : Moment} (h : Plays ⟨b, emits (sendFrame byte) ++ todo, t⟩ moves es q)
    (hdec : decodeWire byte = .rejected why) (hbusy : b.busy = true) (hturn : moves.head? = some .seq) :
    Plays ⟨b, .event (.command byte) :: todo, t⟩ moves es q := by
  refine h.of_step_eq hturn fun s rest hscript hblk => ?_
  have hcall := step_rejectedByte (todo := todo) hscript (by rw [hblk]; exact hbusy) (by rw [hblk]; rfl) hdec
  have hframe := step_standing (s := { s with blk := b.trail (emits (sendFrame byte) ++ todo) }) hscript hbusy rfl nofun
  rw [hcall, hframe, State.movedOn, hblk]
  rfl

/-- The next 32 turns of a sequencer at a call perform the frame of the call's byte, a wire command or not (R102,
R143). -/
theorem plays_callFrame {b : Block} (hbusy : b.busy = true) (byte : Byte) (todo : List Micro) (t : Time) :
    ∃ q, Plays ⟨b, .event (.command byte) :: todo, t⟩ (clocks 32) (pinTrace (sendFrame byte)) q := by
  cases hdec : decodeWire byte with
  | instr i =>
    obtain ⟨more, hframe⟩ := transactionOf_frame hdec b
    have hsent := plays_sendFrame (b := b.apply (.goto .commandSent)) hbusy byte (more ++ todo) t
    have htransaction : transactionOf i b ++ todo =
        .update (.goto .commandSent) :: (emits (sendFrame byte) ++ (more ++ todo)) := by
      rw [hframe, List.cons_append, List.append_assoc]
    exact ⟨_, .call (htransaction ▸ hsent.update hbusy rfl) hdec hbusy rfl⟩
  | rejected why => exact ⟨_, .rejectedCall (plays_sendFrame hbusy byte todo t) hdec hbusy rfl⟩

theorem trace_callFrame {s : State} {byte : Byte} {todo : List Micro} {rest : List Act}
    (hscript : s.env.script = clocks 32 ++ rest) (hbusy : s.blk.busy = true)
    (htodo : s.blk.step.todo = .event (.command byte) :: todo) : trace 32 s = pinTrace (sendFrame byte) := by
  obtain ⟨q, hplays⟩ := plays_callFrame hbusy byte todo s.env.now
  have hblk : s.blk = s.blk.trail (.event (.command byte) :: todo) := by rw [trail_event, moveTo_standing htodo]
  obtain ⟨t, htakes, -⟩ := hplays s rest ⟨hblk, rfl, hscript⟩
  exact htakes.trace_eq

/-- Settles O23: the call's trace is the frame of the command byte, which decodes to that byte: the address 0, then the
code. -/
theorem commandTraceDecodesToItsCode : Obligations.CommandTraceDecodesToItsCode := by
  intro s c todo rest hscript hbusy htodo
  refine ⟨sendFrame (commandByte c), trace_callFrame hscript hbusy htodo, rfl, rfl, ?address, ?code⟩
  case address => rw [decodeTrace_sendFrame, commandByte, BitVec.extractLsb'_append_eq_left, Params.addr]
  case code => rw [decodeTrace_sendFrame, commandByte, BitVec.extractLsb'_append_eq_right]

end Sys2Proof.Machine
end

section
/-! Termination (42_handshake.md rule R164, 45_measurement.md rule R239, 70_reset_and_hazards.md rule R341): how many
rounds of a live environment a running operation still needs, and that every round leaves fewer. -/

namespace Sys2Proof.Machine

/-! ## The rounds an operation still needs -/

/-- The rounds an event needs at most, whatever the time: a loop may see `NOW` wrap once and then needs one round for
each tick of its bound at most; a call needs those of its transaction, with two waits at most. -/
def SeqEvent.mostRounds : SeqEvent → Nat
  | .poll _ | .check _ | .settle => 65540
  | .command _ => 200000
  | .pin _ | .sampleBit | .latchTime => 1

/-- The rounds an event needs at most, this many ticks after the start of its wait.  A round adds a tick or more and
65536 at most, and bounds are below 65536, so what an unfinished wait still needs falls from round to round. -/
def SeqEvent.rounds (ticks : Nat) : SeqEvent → Nat
  | .poll _ => if ticks < 65536 then 65536 - ticks + 2 else 65540
  | .check _ => if ticks < 131072 then 65536 - ticks + 2 else 65539
  | .settle => if ticks < 11 then 11 - ticks else 12
  | e => e.mostRounds

theorem SeqEvent.rounds_le (ticks : Nat) (e : SeqEvent) : e.rounds ticks ≤ e.mostRounds := by
  cases e with
  | poll | check | settle =>
    simp only [rounds, mostRounds]
    split <;> omega
  | pin | sampleBit | latchTime | command => exact le_rfl

/-- The rounds a list of steps needs at most, whatever the time. -/
def mostRounds : List Micro → Nat
  | [] => 0
  | .event e :: rest => e.mostRounds + mostRounds rest
  | .update _ :: rest | .result _ :: rest | .raise _ _ :: rest => mostRounds rest

/-- The rounds a list of steps needs at most, this many ticks after the start of the wait it may stand in. -/
def roundsLeft (ticks : Nat) : List Micro → Nat
  | .event e :: rest => e.rounds ticks + mostRounds rest
  | todo => mostRounds todo

theorem roundsLeft_event (ticks : Nat) (e : SeqEvent) (rest : List Micro) :
    roundsLeft ticks (.event e :: rest) = e.rounds ticks + mostRounds rest := rfl

theorem roundsLeft_le (ticks : Nat) : ∀ todo : List Micro, roundsLeft ticks todo ≤ mostRounds todo
  | [] | .update _ :: _ | .result _ :: _ | .raise _ _ :: _ => le_rfl
  | .event e :: rest => Nat.add_le_add_right (e.rounds_le ticks) (mostRounds rest)

theorem mostRounds_append (ys : List Micro) : ∀ xs : List Micro,
    mostRounds (xs ++ ys) = mostRounds xs + mostRounds ys
  | [] => (Nat.zero_add _).symm
  | .event e :: xs => (congrArg (e.mostRounds + ·) (mostRounds_append ys xs)).trans (Nat.add_assoc ..).symm
  | .update _ :: xs | .result _ :: xs | .raise _ _ :: xs => mostRounds_append ys xs

theorem mostRounds_emits : ∀ es : List PinEvent, mostRounds (emits es) = es.length
  | [] => rfl
  | _ :: es => (congrArg (1 + ·) (mostRounds_emits es)).trans (Nat.add_comm ..)

theorem mostRounds_awaitAck (kind : ErrKind) (site : BitVec 3) : mostRounds (awaitAck kind site) = 65545 := by
  simp [awaitAck, emits, pulse, mostRounds, SeqEvent.mostRounds]

theorem mostRounds_awaitReady (site : BitVec 3) : mostRounds (awaitReady site) = 65542 := by
  simp [awaitReady, mostRounds, SeqEvent.mostRounds]

theorem mostRounds_read8 : mostRounds read8 = 56 := rfl

theorem mostRounds_read16 : mostRounds read16 = 54 := rfl

/-- No transaction has more than two waits (R95). -/
theorem mostRounds_transactionOf {byte : Byte} {i : Instr} (hdec : decodeWire byte = .instr i) (b : Block) :
    mostRounds (transactionOf i b) ≤ (SeqEvent.command byte).mostRounds := by
  have hcommand (cmd : BitVec 5) : (sendCommand cmd).length = 32 := rfl
  have hbyte (new : Byte) : (sendByte new).length = 24 := rfl
  rcases decodeWire_instr hdec with ⟨-, rfl⟩ | ⟨-, rfl⟩ | ⟨-, rfl⟩ | ⟨-, rfl⟩ | ⟨-, rfl⟩ <;>
    simp [transactionOf, measurement, statusRead, statusWrite, softResetAndSettle, mostRounds, mostRounds_append,
      mostRounds_emits, mostRounds_awaitAck, mostRounds_awaitReady, mostRounds_read8, mostRounds_read16, hcommand, hbyte,
      SeqEvent.mostRounds]

/-! ## The rounds left along a step of the sequencer -/

/-- The assignments before the next event leave no more rounds. -/
theorem roundsLeft_lead (ticks : Nat) : ∀ (todo : List Micro) (b : Block),
    roundsLeft ticks (b.lead todo).step.todo ≤ roundsLeft ticks todo
  | [], _ | .event _ :: _, _ => le_rfl
  | .raise _ _ :: _, _ => Nat.zero_le _
  | .update u :: rest, b | .result u :: rest, b =>
    (roundsLeft_lead ticks rest (b.apply u)).trans (roundsLeft_le ticks rest)

/-- The assignments that belong to an event leave no more rounds. -/
theorem roundsLeft_trail (ticks : Nat) : ∀ (todo : List Micro) (b : Block),
    roundsLeft ticks (b.trail todo).step.todo ≤ roundsLeft ticks todo
  | [], _ | .event _ :: _, _ => le_rfl
  | .raise _ _ :: _, _ => Nat.zero_le _
  | .result u :: rest, b => (roundsLeft_trail ticks rest (b.apply u)).trans (roundsLeft_le ticks rest)
  | .update u :: rest, b => by
    rw [trail_update]
    split
    · exact le_rfl
    · exact roundsLeft_lead ticks (.update u :: rest) b

theorem roundsLeft_timedOut (ticks : Nat) (w : Wait) : roundsLeft ticks (timedOut w) ≤ 1 := by
  cases w with
  | ack => exact le_rfl
  | ready => exact Nat.zero_le 1

theorem bound_lt (w : Wait) (b : Block) : w.bound b < 65536 := by
  cases w <;> exact BitVec.isLt _

/-- An event performed a live environment's ticks later leaves fewer rounds: a loop that goes on comes closer to its
bound, once `NOW` has wrapped if it began so late (R164, R341). -/
theorem Performs.fewer_rounds {s : State} {rest todo : List Micro} {e : SeqEvent} {b : Block} {ev : WireEvent}
    {ticks d : Nat} (h : Performs s rest e b ev todo) (hd : 1 ≤ d) (hd' : d ≤ 65536)
    (hnow : elapsed s.env.now s.blk.t0 = (ticks + d) % 2 ^ 32) :
    roundsLeft (elapsed s.env.now b.t0) todo < roundsLeft ticks (.event e :: rest) := by
  have hrest := roundsLeft_le (elapsed s.env.now b.t0) rest
  rw [roundsLeft_event]
  cases h with
  | pin | sampleBit | latchTime => exact Nat.lt_one_add_iff.mpr hrest
  | pollGranted w | settled =>
    rw [SeqEvent.rounds]
    split <;> omega
  | pollSilent w =>
    rw [roundsLeft_event, SeqEvent.rounds, SeqEvent.rounds]
    split <;> split <;> omega
  | checkRemains w hremains =>
    have hbound := bound_lt w s.blk
    rw [roundsLeft_event, SeqEvent.rounds, SeqEvent.rounds]
    split <;> split <;> omega
  | settling hremains =>
    rw [Params.settleMs] at hremains
    rw [roundsLeft_event, SeqEvent.rounds, SeqEvent.rounds]
    split <;> split <;> omega
  | checkPassed w =>
    have htimedOut : roundsLeft (elapsed s.env.now s.blk.t0) (timedOut w) ≤ 1 := roundsLeft_timedOut _ w
    rw [SeqEvent.rounds]
    split <;> omega
  | command byte e es hframe =>
    have hlength : es.length = 31 := by
      have hall : (sendFrame byte).length = 32 := rfl
      simpa [hframe] using hall
    have hframe := roundsLeft_le (elapsed s.env.now (s.blk.drive e).t0) (emits es ++ rest)
    rw [mostRounds_append, mostRounds_emits, hlength] at hframe
    simp only [SeqEvent.rounds, SeqEvent.mostRounds]
    omega

/-! ## The rounds left along a turn and a round -/

theorem lead_t0 (todo : List Micro) (b : Block) : (b.lead todo).t0 = b.t0 :=
  lead_keeps (P := fun c => c.t0 = b.t0) (fun _ u h => by cases u <;> exact h) (fun _ _ _ h => h) (fun _ _ h => h)
    todo b rfl

/-- The rounds the operation still needs at most. -/
def State.roundsNeeded (s : State) : Nat := roundsLeft (elapsed s.env.now s.blk.t0) s.blk.step.todo

/-- A step of a sequencer whose position is well shaped, a live environment's ticks later, ends the operation or leaves
fewer rounds. -/
theorem advance_fewer_rounds {s t : State} {ticks d : Nat} (hshape : wellShaped s.blk.shape s.blk.step.todo = true)
    (hd : 1 ≤ d) (hd' : d ≤ 65536) (hnow : elapsed s.env.now s.blk.t0 = (ticks + d) % 2 ^ 32)
    (hstep : advance s = .next t) : t.blk.busy = false ∨ t.roundsNeeded < roundsLeft ticks s.blk.step.todo := by
  have hlead := roundsLeft_lead ticks s.blk.step.todo s.blk
  rcases advance_cases s with ⟨e, rest, htodo, hadv⟩ | ⟨htodo, hadv⟩
  · rw [htodo] at hlead
    rcases perform_cases { s with blk := s.blk.lead s.blk.step.todo } rest e with
      ⟨b, ev, todo, hperforms, hnext⟩ | ⟨hfault, -⟩
    · cases hstep.symm.trans (hadv.trans hnext)
      have hlt := hperforms.fewer_rounds hd hd' (by rw [lead_t0]; exact hnow)
      have htrail := roundsLeft_trail (elapsed s.env.now b.t0) todo b
      rw [State.roundsNeeded, (trail_wireElements todo b).t0]
      exact .inr (htrail.trans_lt (hlt.trans_le hlead))
    · cases hstep.symm.trans (hadv.trans hfault)
  · cases hstep.symm.trans hadv
    rcases lead_wellShaped_or_ended s.blk.step.todo s.blk hshape with hshaped | ⟨hended, -⟩
    · rw [htodo] at hshaped
      cases hshaped
    · exact .inl hended

/-- A turn of a running sequencer, a live environment's ticks later, ends the operation or leaves fewer rounds. -/
theorem SequencerMove.fewer_rounds {u t : State} {ticks d : Nat} (move : SequencerMove u (.next t)) (hinv : u.Inv)
    (hbusy : u.blk.busy = true) (hd : 1 ≤ d) (hd' : d ≤ 65536)
    (hnow : elapsed u.env.now u.blk.t0 = (ticks + d) % 2 ^ 32) :
    t.blk.busy = false ∨ t.roundsNeeded < roundsLeft ticks u.blk.step.todo := by
  cases move with
  | rests hidle => cases hidle.symm.trans hbusy
  | advances _ _ hr => exact advance_fewer_rounds (hinv.running hbusy).shaped hd hd' hnow hr.symm
  | calls byte i todo _ htodo hdec hr =>
    have hrun := (hinv.running hbusy).inv_lead.running_at htodo
    rw [exec_wire (decodeWire_format hdec)] at hr
    have helapsed : elapsed u.env.now (u.blk.lead u.blk.step.todo).t0 = (ticks + d) % 2 ^ 32 := by rw [lead_t0, hnow]
    have htransaction : roundsLeft ticks (transactionOf i (u.blk.lead u.blk.step.todo) ++ todo) ≤
        roundsLeft ticks u.blk.step.todo := by
      calc roundsLeft ticks (transactionOf i (u.blk.lead u.blk.step.todo) ++ todo)
        _ ≤ mostRounds (transactionOf i (u.blk.lead u.blk.step.todo) ++ todo) := roundsLeft_le ticks _
        _ ≤ (SeqEvent.command byte).mostRounds + mostRounds todo :=
          (mostRounds_append todo _).trans_le (Nat.add_le_add_right (mostRounds_transactionOf hdec _) _)
        _ = roundsLeft ticks (u.blk.lead u.blk.step.todo).step.todo := by rw [htodo]; rfl
        _ ≤ roundsLeft ticks u.blk.step.todo := roundsLeft_lead ticks _ _
    exact (advance_fewer_rounds (running_transaction hrun hdec).shaped hd hd' helapsed hr.symm).imp_right
      fun hlt => hlt.trans_le htransaction

/-- An operation the sequencer ends sets `DONE` (R228, R229). -/
theorem done_kept : KeptBySequencer fun b => b.busy = true ∨ b.done = true where
  apply _ u h := by
    cases u with
    | complete => exact .inr rfl
    | _ => exact h
  fail _ _ _ _ := .inr rfl
  moveTo _ _ h := h
  drive _ e h := by cases e <;> exact h
  granted _ w h := by cases w <;> exact h
  received _ _ h := h
  latched _ _ h := h

/-- Outside an operation `DONE` shows a terminal state (R58). -/
theorem Block.Inv.terminal {b : Block} (hinv : b.Inv) (hidle : b.busy = false) (hdone : b.done = true) :
    b.state = .done ∨ b.state = .failed := by
  have hne := (hinv.done_iff_terminal hidle).mp hdone
  have hrun := (hinv.idle_quiet hidle).1
  revert hne hrun
  cases b.state <;> simp [SeqState.running]

/-- Ticks passing add to the time elapsed, the time base being modular (R12, R25). -/
theorem elapsed_tick (t d t0 : Time) : elapsed (t + d) t0 = (elapsed t t0 + d.toNat) % 2 ^ 32 := by
  have hsum : t + d - t0 = t - t0 + d := by ring
  rw [elapsed, hsum, BitVec.toNat_add, elapsed]

/-- The moves of the sensor and of time leave the block alone (R14). -/
theorem takes_inputs {s : State} {pull : Bool} {d : Time} {rest : List Act}
    (hscript : s.env.script = .sensor pull :: .tick d :: rest) :
    ∃ es u, Takes 2 s es u ∧ u.blk = s.blk ∧ u.env.now = s.env.now + d ∧ u.env.script = rest := by
  have hsensor := step_sensor s pull _ hscript
  rw [pop_eq_movedOn hscript] at hsensor
  exact ⟨_, _, .step hsensor (.step (step_tick _ d rest rfl) (.stop _)), rfl, rfl, rfl⟩

/-- A round of a live environment ends a running operation in a terminal state, or leaves it fewer rounds (R341). -/
theorem takes_round {s : State} {pull : Bool} {d : Time} {rest : List Act} (hinv : s.Inv) (hbusy : s.blk.busy = true)
    (hscript : s.env.script = .sensor pull :: .tick d :: .seq :: rest) (hd : 1 ≤ d.toNat) (hd' : d.toNat ≤ 65536) :
    ∃ es t, Takes 3 s es t ∧ t.Inv ∧ t.env.script = rest ∧
      ((t.blk.busy = false ∧ (t.blk.state = .done ∨ t.blk.state = .failed)) ∨
        (t.blk.busy = true ∧ t.roundsNeeded < s.roundsNeeded)) := by
  obtain ⟨es, u, hinputs, hblk, hnow, hturn⟩ := takes_inputs hscript
  have hmove := (SequencerTurn.scripted rest hturn).move
  rw [State.Inv, ← hblk] at hinv
  rw [← hblk] at hbusy
  obtain ⟨t, hnext⟩ := hmove.next hinv
  rw [hnext] at hmove
  have hscript' : t.env.script = rest := by
    rw [hmove.env_eq]
    rfl
  refine ⟨_, t, hinputs.trans (.step hnext (.stop t)), hmove.keeps_inv hinv, hscript', ?_⟩
  have hleft := hmove.fewer_rounds (ticks := elapsed s.env.now s.blk.t0) hinv hbusy hd hd' <| by
    rw [← elapsed_tick, ← hnow, ← hblk]
    rfl
  have hsame : roundsLeft (elapsed s.env.now s.blk.t0) (u.movedOn rest).blk.step.todo = s.roundsNeeded := by
    rw [State.roundsNeeded, ← hblk]
    rfl
  have hdone := hmove.keeps done_kept (.inl hbusy)
  cases hended : t.blk.busy with
  | false => exact .inl ⟨rfl, (hmove.keeps_inv hinv).terminal hended (by simpa [hended] using hdone)⟩
  | true => exact .inr ⟨rfl, hsame ▸ hleft.resolve_left (by simp [hended])⟩

/-- More rounds of a live environment than the operation needs at most end it (R341). -/
theorem takes_liveRounds : ∀ (moves : List (Bool × Time)) (s : State), s.Inv → s.blk.busy = true →
    s.roundsNeeded < moves.length → (∀ m ∈ moves, 1 ≤ m.2.toNat ∧ m.2.toNat ≤ 65536) →
    s.env.script = liveRounds moves →
    ∃ (k : Nat) (es : List WireEvent) (t : State), k ≤ 3 * moves.length ∧ Takes k s es t ∧ t.blk.busy = false ∧
      (t.blk.state = .done ∨ t.blk.state = .failed)
  | [], _, _, _, hlong, _, _ => by cases hlong
  | (pull, d) :: moves, s, hinv, hbusy, hlong, hlive, hscript => by
    obtain ⟨⟨hd, hd'⟩, hlive⟩ := List.forall_mem_cons.mp hlive
    obtain ⟨es, u, hround, hinv, hscript, ⟨hidle, hend⟩ | ⟨hbusy, hless⟩⟩ := takes_round hinv hbusy hscript hd hd'
    · exact ⟨3, es, u, by simp, hround, hidle, hend⟩
    · rw [List.length_cons] at hlong ⊢
      obtain ⟨k, fs, t, hk, htakes, hend⟩ := takes_liveRounds moves u hinv hbusy (by omega) hlive hscript
      exact ⟨3 + k, es ++ fs, t, by omega, hround.trans htakes, hend⟩

/-- Settles O58: every round of a live environment takes at least one from the rounds the operation may still need. -/
theorem everyOperationTerminates : Obligations.EveryOperationTerminates := by
  intro s hinv hbusy
  refine ⟨s.roundsNeeded + 1, fun moves hlong hlive => ?_⟩
  obtain ⟨k, es, t, hk, htakes, hidle, hend⟩ :=
    takes_liveRounds moves { s with env := { s.env with script := liveRounds moves } } hinv hbusy hlong hlive rfl
  exact ⟨k, t, hk, htakes.runsTo, hidle, hend⟩

end Sys2Proof.Machine
end

section
/-! The two bounded waits and the settle delay while they last, and how they end (42_handshake.md rules R160 to R164,
45_measurement.md rule R224, 44_status_manager.md rule R198). -/

namespace Sys2Proof.Machine

/-! ## A wait that ends well -/

/-- A poll that sees DATA low ends the wait, whatever the time: the time is not read (R164, R291). -/
theorem step_poll_low {s : State} {w : Wait} {more : List Micro} {rest : List Act} (h : s.env.script = .seq :: rest)
    (hbusy : s.blk.busy = true) (hin : s.blk.dataDir = .inp) (hpull : s.env.sensorPull = true)
    (hwaits : waitsForEvent more = true) (hat : s.blk.step.todo = .event (.poll w) :: more) :
    step s = .next
      { blk := (s.blk.granted w).moveTo more, env := { (s.movedOn rest).env with event := some (.sample false) } } := by
  have hsampled : (s.movedOn rest).perform more (.poll w) =
      (s.movedOn rest).performed (s.blk.granted w) (.sample false) more := by
    have hmoved : (s.movedOn rest).env.sensorPull = true := hpull
    rw [State.perform, sampled_inp (s.movedOn rest) _ hin, hmoved]
    rfl
  rw [step_standing h hbusy hat nofun, hsampled, performed_next, trail_of_waitsForEvent hwaits]

/-- Settles O27: the poll grants either wait; only the measurement wait has something to disarm. -/
theorem lowLevelWinsOverTheDeadline : Obligations.LowLevelWinsOverTheDeadline :=
  fun _ _ _ h hbusy hin hpull hwaits =>
    ⟨fun _ _ hat => step_poll_low h hbusy hin hpull hwaits hat, fun _ hat => step_poll_low h hbusy hin hpull hwaits hat⟩

/-! ## The rounds of a loop -/

/-- A poll that finds DATA high goes on to the time read (R160, R224). -/
theorem plays_silentPoll {a b : Block} {pending todo : List Micro} {w : Wait}
    (hlead : a.lead pending = b.moveTo (.event (.poll w) :: todo)) (hbusy : b.busy = true) (hdir : b.dataDir = .inp)
    (t : Time) : Plays ⟨a, pending, t⟩ (present true) [.sample true] ⟨b, .event (.check w) :: todo, t⟩ := by
  refine plays_presented hlead hbusy nofun fun u hblk hpull => ?_
  have hin : u.blk.dataDir = .inp := by rw [hblk]; exact hdir
  rw [State.perform, sampled_inp u _ hin, hpull, hblk]
  rfl

/-- A time read before the bound goes back to the poll (R163). -/
theorem plays_checkRemains {b : Block} {w : Wait} {t : Time} (hbusy : b.busy = true)
    (hremains : elapsed t b.t0 < w.bound b) (todo : List Micro) :
    Plays ⟨b, .event (.check w) :: todo, t⟩ [.seq] [.time t] ⟨b, .event (.poll w) :: todo, t⟩ := by
  rintro s rest ⟨hblk, rfl, hscript⟩
  refine takes_event ⟨hblk, rfl, hscript⟩ rfl hbusy nofun fun u hu henv => ?_
  rw [State.perform, hu, henv]
  exact if_neg (Nat.not_le.mpr (by cases w <;> exact hremains))

/-- A time read at or after the bound leaves what the wait's failure has to do (R160, R224). -/
theorem plays_checkPassed {b : Block} {w : Wait} {t : Time} (hbusy : b.busy = true)
    (hpassed : w.bound b ≤ elapsed t b.t0) (todo : List Micro) :
    Plays ⟨b, .event (.check w) :: todo, t⟩ [.seq] [.time t] ⟨b, timedOut w, t⟩ := by
  rintro s rest ⟨hblk, rfl, hscript⟩
  refine takes_event ⟨hblk, rfl, hscript⟩ rfl hbusy nofun fun u hu henv => ?_
  rw [State.perform, hu, henv]
  exact if_pos (by cases w <;> exact hpassed)

/-- A look at the time before `SETTLE_MS` ticks have passed goes on with the delay (R198). -/
theorem plays_settling {b : Block} {t : Time} (hbusy : b.busy = true) (hremains : elapsed t b.t0 < Params.settleMs)
    (todo : List Micro) :
    Plays ⟨b, .event .settle :: todo, t⟩ [.seq] [.time t] ⟨b, .event .settle :: todo, t⟩ := by
  rintro s rest ⟨hblk, rfl, hscript⟩
  refine takes_event ⟨hblk, rfl, hscript⟩ rfl hbusy nofun fun u hu henv => ?_
  rw [State.perform, hu, henv]
  exact if_neg (Nat.not_le.mpr hremains)

/-- A round with the sensor silent and time remaining is back where it began (R163, R224). -/
theorem plays_silentRound {b : Block} {w : Wait} {t d : Time} (hbusy : b.busy = true) (hdir : b.dataDir = .inp)
    (hremains : elapsed (t + d) b.t0 < w.bound b) (todo : List Micro) :
    Plays ⟨b, .event (.poll w) :: todo, t⟩ [.sensor false, .seq, .tick d, .seq] [.sample true, .time (t + d)]
      ⟨b, .event (.poll w) :: todo, t + d⟩ :=
  ((plays_silentPoll rfl hbusy hdir t).trans (plays_tick b _ t d)).trans (plays_checkRemains hbusy hremains todo)

theorem plays_settleRound {b : Block} {t d : Time} (hbusy : b.busy = true)
    (hremains : elapsed (t + d) b.t0 < Params.settleMs) (todo : List Micro) :
    Plays ⟨b, .event .settle :: todo, t⟩ [.tick d, .seq] [.time (t + d)] ⟨b, .event .settle :: todo, t + d⟩ :=
  (plays_tick b _ t d).trans (plays_settling hbusy hremains todo)

/-- A loop each of whose rounds is back where it began goes on through any number of rounds. -/
theorem plays_rounds {b : Block} {todo : List Micro} {round : Time → List Act} {event : Time → List WireEvent}
    {remains : Time → Prop}
    (hround : ∀ t d, remains (t + d) → Plays ⟨b, todo, t⟩ (round d) (event (t + d)) ⟨b, todo, t + d⟩) :
    ∀ (ticks : List Time) (t : Time), (∀ k < ticks.length, remains (t + (ticks.take (k + 1)).sum)) →
      ∃ es, Plays ⟨b, todo, t⟩ (ticks.flatMap round) es ⟨b, todo, t + ticks.sum⟩
  | [], t, _ => ⟨[], by simpa using Plays.refl ⟨b, todo, t⟩⟩
  | d :: ticks, t, hremains => by
    have hfirst : remains (t + d) := by simpa using hremains 0 (by simp)
    have hlater : ∀ k < ticks.length, remains (t + d + (ticks.take (k + 1)).sum) := fun k hk => by
      simpa [add_assoc] using hremains (k + 1) (by simpa using hk)
    obtain ⟨es, hrest⟩ := plays_rounds hround ticks (t + d) hlater
    rw [List.sum_cons, ← add_assoc]
    exact ⟨_, (hround t d hfirst).trans hrest⟩

/-- What plays from where a block stands back to there is a run that leaves the block as it was. -/
theorem Plays.runsTo_standing {s : State} {e : SeqEvent} {todo : List Micro} {moves rest : List Act}
    {es : List WireEvent} {t : Time}
    (h : Plays ⟨s.blk, .event e :: todo, s.env.now⟩ moves es ⟨s.blk, .event e :: todo, t⟩)
    (hat : s.blk.step.todo = .event e :: todo) (hscript : s.env.script = moves ++ rest) :
    ∃ u, runsTo moves.length s u ∧ u.blk = s.blk ∧ u.env.script = rest ∧ u.env.now = t := by
  have hstands : s.blk.trail (.event e :: todo) = s.blk := by rw [trail_event, moveTo_standing hat]
  obtain ⟨u, htakes, hblk, hnow, hrest⟩ := h s rest ⟨hstands.symm, rfl, hscript⟩
  exact ⟨u, htakes.runsTo, hblk.trans hstands, hrest, hnow⟩

/-- Settles O25: each round is back at the head of its loop, so any number of them is. -/
theorem waitsContinueWhileTimeRemains : Obligations.WaitsContinueWhileTimeRemains := by
  refine ⟨fun s w todo ticks rest hscript hbusy hdir hat hremains => ?wait,
    fun s todo ticks rest hscript hbusy hat hremains => ?settle⟩
  case wait =>
    obtain ⟨es, hplays⟩ := plays_rounds (round := fun d => [.sensor false, .seq, .tick d, .seq])
      (event := fun t => [.sample true, .time t]) (remains := fun t => elapsed t s.blk.t0 < w.bound s.blk)
      (fun t d hround => plays_silentRound hbusy hdir hround todo) ticks s.env.now hremains
    have hlength : (silentRounds ticks).length = 4 * ticks.length := by
      simp [silentRounds, List.length_flatMap, Nat.mul_comm]
    exact hlength ▸ hplays.runsTo_standing hat hscript
  case settle =>
    obtain ⟨es, hplays⟩ := plays_rounds (round := fun d => [.tick d, .seq]) (event := fun t => [.time t])
      (remains := fun t => elapsed t s.blk.t0 < Params.settleMs)
      (fun t d hround => plays_settleRound hbusy hround todo) ticks s.env.now hremains
    have hlength : (ticks.flatMap fun d => [Act.tick d, .seq]).length = 2 * ticks.length := by
      simp [List.length_flatMap, Nat.mul_comm]
    exact hlength ▸ hplays.runsTo_standing hat hscript

end Sys2Proof.Machine
end

section
/-! What a missed handshake and a measurement never ready leave behind (42_handshake.md rule R162, 45_measurement.md
rules R224 and R229, 60_exceptions.md rule R288): the two failing waits, the transactions they cut short, and the
operations those transactions end. -/

namespace Sys2Proof.Machine

/-! ## Failing waits -/

/-- The trace of a handshake missed at its first time read, `d` ticks after its start at time `t` (R160, R162). -/
def missedAckTrace (t d : Time) : List WireEvent :=
  [.pin .release, .time t, .sample true, .time (t + d), .pin (.data false)]

section

variable {b : Block} (hbusy : b.busy = true) {d : Time} (t : Time)

include hbusy

/-- A handshake missed at its bound parks DATA low before its caller's `raise`, whatever was to follow (R160, R162). -/
theorem plays_missedAck (hlate : b.ackTmo.toNat ≤ d.toNat) (kind : ErrKind) (site : BitVec 3) (todo : List Micro) :
    Plays ⟨b, awaitAck kind site ++ todo, t⟩ (missAck d) (missedAckTrace t d)
      ⟨{ b with dataOut := false, dataDir := .out, t0 := t }, [.raise kind site], t + d⟩ := by
  let more := emits (pulse 1 ++ [.data false]) ++ .update .countAck :: todo
  have hrelease := plays_pin hbusy .release (.event .latchTime :: .event (.poll (.ack kind site)) :: more) t
  have hlatch := plays_latchTime (b := b.drive .release) hbusy (.event (.poll (.ack kind site)) :: more) t
  have hpoll := plays_silentPoll (b := { b.drive .release with t0 := t }) (w := .ack kind site) (todo := more)
    (pending := .event (.poll (.ack kind site)) :: more) rfl hbusy rfl t
  have htick := plays_tick { b.drive .release with t0 := t } (.event (.check (.ack kind site)) :: more) t d
  have hcheck := plays_checkPassed (b := { b.drive .release with t0 := t }) (w := .ack kind site) (t := t + d) hbusy
    (hlate.trans (elapsed_add t d).ge) more
  have hpark := plays_pin (b := { b.drive .release with t0 := t }) hbusy (.data false) [.raise kind site] (t + d)
  exact ((((hrelease.trans hlatch).trans hpoll).trans htick).trans hcheck).trans hpark

/-- A measurement not ready at its bound leaves DATA an input and the alarms as `FACE` armed them (R224, R233). -/
theorem plays_neverReady (hlate : b.measTmo.toNat ≤ d.toNat) (site : BitVec 3) (todo : List Micro) :
    Plays ⟨b, awaitReady site ++ todo, t⟩ (missReady d) [.pin .release, .time t, .sample true, .time (t + d)]
      ⟨({ b with dataDir := .inp, t0 := t } : Block).apply .arm, [.raise .measurementTimeout site], t + d⟩ := by
  let poll := Micro.event (.poll (.ready site)) :: todo
  have hrelease := plays_pin hbusy .release (.event .latchTime :: .update .arm :: poll) t
  have hlatch := plays_latchTime (b := b.drive .release) hbusy (.update .arm :: poll) t
  let waiting : Block := { b.drive .release with t0 := t }.apply .arm
  have hpoll := plays_silentPoll (a := { b.drive .release with t0 := t }) (pending := .update .arm :: poll)
    (b := waiting) (w := .ready site) (todo := todo) rfl hbusy rfl t
  have htick := plays_tick waiting (.event (.check (.ready site)) :: todo) t d
  have hcheck := plays_checkPassed (b := waiting) (w := .ready site) (t := t + d) hbusy
    (hlate.trans (elapsed_add t d).ge) todo
  exact (((hrelease.trans hlatch).trans hpoll).trans htick).trans hcheck

/-! ## Transactions cut short -/

/-- Pin events that leave both lines driven and CLOCK low, and their handshake missed (R143, R160, R192). -/
theorem plays_emitsAndMissedAck (es : List PinEvent) {level : Bool} (hes : es.foldl Block.drive b = b.driven level)
    (hlate : b.ackTmo.toNat ≤ d.toNat) (kind : ErrKind) (site : BitVec 3) (todo : List Micro) :
    Plays ⟨b, emits es ++ .update (.goto .awaitingAck) :: (awaitAck kind site ++ todo), t⟩
      (clocks es.length ++ missAck d) (pinTrace es ++ missedAckTrace t d)
      ⟨b.addressed t, [.raise kind site], t + d⟩ := by
  have hemits := plays_emits (.update (.goto .awaitingAck) :: (awaitAck kind site ++ todo)) t es hbusy
  rw [hes] at hemits
  have hack := plays_missedAck (b := (b.driven level).apply (.goto .awaitingAck)) hbusy t hlate kind site todo
  exact hemits.trans (hack.update hbusy rfl)

/-- A command whose handshake is missed (R143, R162). -/
theorem plays_commandAndMissedAck (hlate : b.ackTmo.toNat ≤ d.toNat) (cmd : BitVec 5) (kind : ErrKind)
    (site : BitVec 3) (todo : List Micro) :
    Plays
      ⟨b, .update (.goto .commandSent) :: emits (sendCommand cmd)
        ++ .update (.goto .awaitingAck) :: (awaitAck kind site ++ todo), t⟩
      (clocks 32 ++ missAck d) (pinTrace (sendCommand cmd) ++ missedAckTrace t d)
      ⟨b.addressed t, [.raise kind site], t + d⟩ := by
  have hframe := plays_emitsAndMissedAck (b := b.apply (.goto .commandSent)) hbusy t (sendCommand cmd)
    (level := (commandByte cmd).getLsbD 0) rfl hlate kind site todo
  exact hframe.update hbusy rfl

/-- A status read whose handshake is missed raises the kind of the running operation (R190, R286). -/
theorem plays_statusRead_missed (hlate : b.ackTmo.toNat ≤ d.toNat) (todo : List Micro) :
    Plays ⟨b, callGetStatus ++ todo, t⟩ (clocks 32 ++ missAck d)
      (pinTrace (sendCommand Params.cmdReadStatus) ++ missedAckTrace t d)
      ⟨b.addressed t, [.raise b.step.kind 1], t + d⟩ :=
  .call (i := .wReadStatus) (plays_commandAndMissedAck hbusy t hlate Params.cmdReadStatus b.step.kind 1
    (.update (.goto .decoding) :: (read8 ++ .update .refreshMode :: todo))) rfl hbusy rfl

/-- The call that writes the status, the second part of `setStatusBit` (R192). -/
def callWriteStatus : List Micro := [.event (.command (commandByte Params.cmdWriteStatus))]

/-- A status write whose first handshake is missed has sent no byte (R192, R288). -/
theorem plays_statusWrite_missed (hlate : b.ackTmo.toNat ≤ d.toNat) (todo : List Micro) :
    Plays ⟨b, callWriteStatus ++ todo, t⟩ (clocks 32 ++ missAck d)
      (pinTrace (sendCommand Params.cmdWriteStatus) ++ missedAckTrace t d)
      ⟨b.addressed t, [.raise .handshakeTimeout 2], t + d⟩ :=
  .call (i := .wWriteStatus) (plays_commandAndMissedAck hbusy t hlate Params.cmdWriteStatus .handshakeTimeout 2
    (.update (.goto .commandSent) :: .update (.stageWrite (newStatus b.status b.step.bit b.step.val)) ::
      (emits (sendByte (newStatus b.status b.step.bit b.step.val)) ++
        .update (.goto .awaitingAck) :: (awaitAck .handshakeTimeout 3 ++ todo)))) rfl hbusy rfl

/-- A status write whose second handshake is missed has sent the byte, which the sensor may hold or not (R192, R288). -/
theorem plays_statusWriteByte_missed (hlate : b.ackTmo.toNat ≤ d.toNat) (todo : List Micro) :
    Plays ⟨b, callWriteStatus ++ todo, t⟩ (clocks 32 ++ answerAck ++ (clocks 24 ++ missAck d))
      (pinTrace (sendCommand Params.cmdWriteStatus) ++ handshakeTrace t
        ++ (pinTrace (sendByte (newStatus b.status b.step.bit b.step.val)) ++ missedAckTrace t d))
      ⟨b.afterStatusWrite (newStatus b.status b.step.bit b.step.val) t, [.raise .handshakeTimeout 3], t + d⟩ := by
  have hframe := plays_commandAndAck hbusy Params.cmdWriteStatus .handshakeTimeout 2
    (.update (.goto .commandSent) :: .update (.stageWrite (newStatus b.status b.step.bit b.step.val)) ::
      (emits (sendByte (newStatus b.status b.step.bit b.step.val)) ++
        .update (.goto .awaitingAck) :: (awaitAck .handshakeTimeout 3 ++ todo))) t
  have hbyte := plays_emitsAndMissedAck
    (b := (((b.addressed t).apply .countAck).apply (.goto .commandSent)).apply
      (.stageWrite (newStatus b.status b.step.bit b.step.val)))
    hbusy t (sendByte (newStatus b.status b.step.bit b.step.val))
    (level := (newStatus b.status b.step.bit b.step.val).getLsbD 0) rfl hlate .handshakeTimeout 3 todo
  have hall := hframe.trans (((hbyte.update hbusy rfl).update hbusy rfl).update hbusy rfl)
  exact .call (i := .wWriteStatus) hall rfl hbusy rfl

/-- A measurement whose handshake is missed (R223, R288). -/
theorem plays_measurement_missed (hlate : b.ackTmo.toNat ≤ d.toNat) (cmd : BitVec 5) (siteA siteM : BitVec 3)
    (todo : List Micro) :
    Plays ⟨b, measurement cmd siteA siteM ++ todo, t⟩ (clocks 32 ++ missAck d)
      (pinTrace (sendCommand cmd) ++ missedAckTrace t d) ⟨b.addressed t, [.raise .handshakeTimeout siteA], t + d⟩ :=
  plays_commandAndMissedAck hbusy t hlate cmd .handshakeTimeout siteA
    (.update (.goto .awaitingMeasurement) :: (awaitReady siteM ++ .update (.goto .decoding) :: (read16 ++ todo)))

/-- The block inside a measurement wait that began at time `t`, the alarms armed as `FACE` says (R224). -/
def Block.keptWaiting (b : Block) (t : Time) : Block :=
  { b.addressed t with state := .awaitingMeasurement, ackCnt := b.ackCnt + 1, dataDir := .inp }.apply .arm

/-- A measurement that is never ready (R223, R224, R288). -/
theorem plays_measurement_neverReady (hlate : b.measTmo.toNat ≤ d.toNat) (cmd : BitVec 5) (siteA siteM : BitVec 3)
    (todo : List Micro) :
    Plays ⟨b, measurement cmd siteA siteM ++ todo, t⟩ (clocks 32 ++ answerAck ++ missReady d)
      (pinTrace (sendCommand cmd) ++ handshakeTrace t ++ [.pin .release, .time t, .sample true, .time (t + d)])
      ⟨b.keptWaiting t, [.raise .measurementTimeout siteM], t + d⟩ := by
  have hframe := plays_commandAndAck hbusy cmd .handshakeTimeout siteA
    (.update (.goto .awaitingMeasurement) :: (awaitReady siteM ++ .update (.goto .decoding) :: (read16 ++ todo))) t
  have hready := plays_neverReady (b := ((b.addressed t).apply .countAck).apply (.goto .awaitingMeasurement)) hbusy t
    hlate siteM (.update (.goto .decoding) :: (read16 ++ todo))
  exact hframe.trans ((hready.update hbusy rfl).update hbusy rfl)

end

/-! ## Failing operations -/

/-- A command accepted by an idle block runs its body; where that ends in a `raise`, the operation has failed (R222,
R229). -/
theorem runsTo_failure {s : State} {v : Word} {i : Instr} {needsReady : Bool} {first : SeqState} {body : Position}
    {moves rest : List Act} {es : List WireEvent} {a c : Block} {kind : ErrKind} {site : BitVec 3} {t' : Time}
    (hidle : s.blk.busy = false) (hready : needsReady = true → s.blk.ready = true)
    (hscript : s.env.script = .host (.write 0 v) :: (moves ++ rest)) (hdec : decodeHost (v.setWidth 16) = .instr i)
    (hexec : ∀ u, exec i u = issue i needsReady first body u) (hwaits : waitsForEvent body.todo = true)
    (haccept : s.blk.accept (encode i) body first = a)
    (hplays : Plays ⟨a, body.todo, s.env.now⟩ moves es ⟨c, [.raise kind site], t'⟩) :
    ∃ t, runsTo (1 + moves.length) s t ∧ t.env.script = rest ∧ t.blk = c.fail kind site := by
  have hissue : exec i (s.movedOn (moves ++ rest)) = .next { s.movedOn (moves ++ rest) with blk := a } := by
    rw [hexec, ← haccept]
    rcases issue_cases i needsReady first body (s.movedOn (moves ++ rest)) with
      ⟨haccepted, -⟩ | ⟨-, hbusy | ⟨hneeds, hnot⟩⟩
    · exact haccepted
    · cases hidle.symm.trans hbusy
    · cases (hready hneeds).symm.trans hnot
  have hstands : a = a.trail body.todo := by
    rw [trail_of_waitsForEvent hwaits, ← haccept]
    rfl
  obtain ⟨t, htakes, hblk, -, hrest⟩ := hplays { s.movedOn (moves ++ rest) with blk := a } rest ⟨hstands, rfl, rfl⟩
  rw [Nat.add_comm]
  exact ⟨t, (Takes.step ((step_hostWord hscript hdec).trans hissue) htakes).runsTo, hrest, hblk⟩

/-! ## `INIT` -/

/-- Acceptance of a construction forgets the session too (R222). -/
theorem accept_eq_begun_construction {word : Half} (htemp : takesArgTemp word = false)
    (hraw : takesArgRaw word = false) (hinit : isConstruction word = true) (b : Block) (body : Position)
    (first : SeqState) :
    b.accept word body first =
      { b.begun word (faceOf word) first body with ready := false, resMode := false } := by
  simp [Block.accept, Block.begun, Block.cleared, htemp, hraw, hinit]

/-- `construct` with the handshake of its status read missed, after the soft reset and its settle delay (R199, R286). -/
theorem plays_construct_missed {b : Block} (hbusy : b.busy = true) {d : Time} (t : Time)
    (hlate : b.ackTmo.toNat ≤ d.toNat) (todo : List Micro) :
    Plays ⟨b, callSoftReset ++ callGetStatus ++ todo, t⟩ (answerSoftReset ++ (clocks 32 ++ missAck d))
      (softResetTrace t ++ (pinTrace (sendCommand Params.cmdReadStatus) ++ missedAckTrace (t + 11) d))
      ⟨(b.afterSoftReset t).addressed (t + 11), [.raise b.step.kind 1], t + 11 + d⟩ := by
  have hreset := Plays.call (byte := commandByte Params.cmdSoftReset) (i := .wSoftReset)
    (plays_softReset hbusy (callGetStatus ++ todo) t) rfl hbusy rfl
  exact hreset.trans (plays_statusRead_missed (b := b.afterSoftReset t) hbusy (t + 11) hlate todo)

/-- Settles O45: the kind of error is the operand of `construct`'s status read, its site that of every status read
(R286, R288). -/
theorem initWithoutAckFailsConstruction : Obligations.InitWithoutAckFailsConstruction := by
  intro s d rest hidle hlate hscript
  have hmoves : answerSoftReset ++ clocks 34 ++ silentRounds [d] ++ clocks 1 =
      answerSoftReset ++ (clocks 32 ++ missAck d) := rfl
  rw [hmoves] at hscript ⊢
  exact runsTo_failure (i := .init) (needsReady := false) hidle nofun hscript rfl (fun _ => rfl) rfl
    (accept_eq_begun_construction rfl rfl rfl ..) (plays_construct_missed rfl s.env.now (by exact hlate)
      [.update .setReady, .update .complete])

/-! ## The status operations -/

/-- What `SET_STATUS_BIT` and the wrappers do after the status write (R201, R205). -/
def afterWrite (refresh : Bool) : List Micro := (if refresh then callGetStatus else []) ++ [.update .complete]

/-- The body of `SET_STATUS_BIT`, or of a wrapper where `refresh` (R201, R205). -/
def writeBody (bit : BitVec 3) (val refresh : Bool) : Position :=
  { todo := callSetStatusBit ++ afterWrite refresh, kind := .handshakeTimeout, bit := bit, val := val }

/-- What makes a word a status write with this body: it decodes to an operation with that body, which copies no operand,
constructs no session and runs in the synchronous face (R201, R205, R222). -/
structure StatusCommand (word : Half) (i : Instr) (body : Position) : Prop where
  decodes : decodeHost word = .instr i
  exec_eq : ∀ u, exec i u = issue i true .commandSent body u
  no_temp : takesArgTemp word = false
  no_raw : takesArgRaw word = false
  no_construction : isConstruction word = false
  synchronous : faceOf word = false

theorem statusCommand_setStatusBit (bit : BitVec 3) (val : Bool) :
    StatusCommand (0x4000#16 ||| (BitVec.ofBool val).setWidth 16 <<< 9 ||| bit.setWidth 16 <<< 6)
      (.setStatusBit bit.toNat val) (writeBody bit val false) where
  decodes := by revert bit val; decide
  exec_eq _ := by
    have hbit : BitVec.ofNat 3 bit.toNat = bit := by simp
    rw [exec, execSetStatusBit, hbit]
    rfl
  no_temp := by revert bit val; decide
  no_raw := by revert bit val; decide
  no_construction := by revert bit val; decide
  synchronous := by revert bit val; decide

theorem writesStatus_command {word : Half} {bit : BitVec 3} {val refresh : Bool}
    (h : writesStatus word bit val refresh) : ∃ i, StatusCommand word i (writeBody bit val refresh) := by
  cases refresh with
  | false =>
    cases (show word = _ from h)
    exact ⟨_, statusCommand_setStatusBit bit val⟩
  | true =>
    have hmem : (word, bit, val) ∈ _ := h
    simp only [List.mem_cons, Prod.mk.injEq, List.not_mem_nil, or_false] at hmem
    rcases hmem with
      ⟨rfl, rfl, rfl⟩ | ⟨rfl, rfl, rfl⟩ | ⟨rfl, rfl, rfl⟩ | ⟨rfl, rfl, rfl⟩ | ⟨rfl, rfl, rfl⟩ | ⟨rfl, rfl, rfl⟩
    · exact ⟨.setLowRes, by decide, fun _ => rfl, rfl, rfl, rfl, rfl⟩
    · exact ⟨.setHighRes, by decide, fun _ => rfl, rfl, rfl, rfl, rfl⟩
    · exact ⟨.setHeater true, by decide, fun _ => rfl, rfl, rfl, rfl, rfl⟩
    · exact ⟨.setHeater false, by decide, fun _ => rfl, rfl, rfl, rfl, rfl⟩
    · exact ⟨.setOtpReload true, by decide, fun _ => rfl, rfl, rfl, rfl, rfl⟩
    · exact ⟨.setOtpReload false, by decide, fun _ => rfl, rfl, rfl, rfl, rfl⟩

/-- Where the body of a status write ends in a `raise`, the operation has failed. -/
theorem runsTo_writeFailure {s : State} {word : Half} {bit : BitVec 3} {val refresh : Bool} {moves rest : List Act}
    {es : List WireEvent} {c : Block} {kind : ErrKind} {site : BitVec 3} {t' : Time}
    (hidle : s.blk.busy = false) (hready : s.blk.ready = true) (hword : writesStatus word bit val refresh)
    (hscript : s.env.script = .host (.write 0 (word.setWidth 32)) :: (moves ++ rest))
    (hplays : Plays
      ⟨s.blk.begun word false .commandSent (writeBody bit val refresh), callSetStatusBit ++ afterWrite refresh,
        s.env.now⟩
      moves es ⟨c, [.raise kind site], t'⟩) :
    ∃ t, runsTo (1 + moves.length) s t ∧ t.env.script = rest ∧ t.blk = c.fail kind site := by
  obtain ⟨i, hcommand⟩ := writesStatus_command hword
  have hdec : decodeHost ((word.setWidth 32).setWidth 16) = .instr i := by
    have hlow : (word.setWidth 32).setWidth 16 = word := by simp
    rw [hlow, hcommand.decodes]
  have haccept := accept_eq_begun hcommand.no_temp hcommand.no_raw hcommand.no_construction s.blk
    (writeBody bit val refresh) .commandSent
  rw [hcommand.synchronous, ← encode_of_decodeHost hcommand.decodes] at haccept
  exact runsTo_failure hidle (fun _ => hready) hscript hdec hcommand.exec_eq rfl haccept
    ((encode_of_decodeHost hcommand.decodes).symm ▸ hplays)

/-- The block after `setStatusBit`, before its last handshake is counted (R192). -/
def Block.afterSetStatusBit (b : Block) (st ck : Byte) (t : Time) : Block :=
  ((b.afterStatusRead st ck t).apply .refreshMode).afterStatusWrite (newStatus st b.step.bit b.step.val) t

section

variable {b : Block} (hbusy : b.busy = true) {d : Time} (t : Time) (hlate : b.ackTmo.toNat ≤ d.toNat) (st ck : Byte)

include hbusy hlate

/-- `setStatusBit` whose status write is not acknowledged: the status has been read and the mode refreshed (R192,
R288). -/
theorem plays_setStatusBit_missed (todo : List Micro) :
    Plays ⟨b, callSetStatusBit ++ todo, t⟩ (answerStatusRead st ck ++ (clocks 32 ++ missAck d))
      (statusReadTrace t st ck ++ (pinTrace (sendCommand Params.cmdWriteStatus) ++ missedAckTrace t d))
      ⟨((b.afterStatusRead st ck t).apply .refreshMode).addressed t, [.raise .handshakeTimeout 2], t + d⟩ := by
  have hread := Plays.call (byte := commandByte Params.cmdReadStatus) (i := .wReadStatus)
    (plays_statusRead hbusy b.step.kind st ck (callWriteStatus ++ todo) t) rfl hbusy rfl
  have hwrite := plays_statusWrite_missed (b := (b.afterStatusRead st ck t).apply .refreshMode) hbusy t hlate todo
  exact hread.trans (hwrite.update hbusy rfl)

/-- `setStatusBit` whose byte is not acknowledged: the cached mode is stale (R192, R288). -/
theorem plays_setStatusBitByte_missed (todo : List Micro) :
    Plays ⟨b, callSetStatusBit ++ todo, t⟩
      (answerStatusRead st ck ++ (clocks 32 ++ answerAck ++ (clocks 24 ++ missAck d)))
      (statusReadTrace t st ck ++ (pinTrace (sendCommand Params.cmdWriteStatus) ++ handshakeTrace t
        ++ (pinTrace (sendByte (newStatus st b.step.bit b.step.val)) ++ missedAckTrace t d)))
      ⟨b.afterSetStatusBit st ck t, [.raise .handshakeTimeout 3], t + d⟩ := by
  have hread := Plays.call (byte := commandByte Params.cmdReadStatus) (i := .wReadStatus)
    (plays_statusRead hbusy b.step.kind st ck (callWriteStatus ++ todo) t) rfl hbusy rfl
  have hwrite := plays_statusWriteByte_missed (b := (b.afterStatusRead st ck t).apply .refreshMode) hbusy t hlate todo
  exact hread.trans (hwrite.update hbusy rfl)

/-- `setStatusBit` with the refresh after it not acknowledged: the mode is that of the first read, and stale (R205,
R288). -/
theorem plays_refresh_missed (todo : List Micro) :
    Plays ⟨b, callSetStatusBit ++ (callGetStatus ++ todo), t⟩
      (answerStatusRead st ck ++ (answerStatusWrite ++ (clocks 32 ++ missAck d)))
      (statusReadTrace t st ck ++ (statusWriteTrace t (newStatus st b.step.bit b.step.val)
        ++ (pinTrace (sendCommand Params.cmdReadStatus) ++ missedAckTrace t d)))
      ⟨((b.afterSetStatusBit st ck t).apply .countAck).addressed t, [.raise b.step.kind 1], t + d⟩ := by
  have hread := Plays.call (byte := commandByte Params.cmdReadStatus) (i := .wReadStatus)
    (plays_statusRead hbusy b.step.kind st ck (callWriteStatus ++ (callGetStatus ++ todo)) t) rfl hbusy rfl
  have hwrite := Plays.call (byte := commandByte Params.cmdWriteStatus) (i := .wWriteStatus)
    (plays_statusWrite (b := (b.afterStatusRead st ck t).apply .refreshMode) hbusy
      (newStatus st b.step.bit b.step.val) (callGetStatus ++ todo) t) rfl hbusy rfl
  have hrefresh := plays_statusRead_missed (b := (b.afterSetStatusBit st ck t).apply .countAck) hbusy t hlate todo
  exact hread.trans ((hwrite.trans (hrefresh.update hbusy rfl)).update hbusy rfl)

end

/-- Settles O59: each row of the table is a transaction cut short after those before it. -/
theorem statusFailuresLeaveTheirRecord : Obligations.StatusFailuresLeaveTheirRecord := by
  refine ⟨fun s d rest hidle hready hlate hscript => ?getStatus,
    fun s word bit val refresh st ck d rest hidle hready hlate hword =>
      ⟨fun hscript => ?site1, fun hscript => ?site2, fun hscript => ?site3, fun hrefresh hscript => ?refresh⟩⟩
  case getStatus =>
    exact runsTo_failure (i := .getStatus) (needsReady := true) hidle (fun _ => hready) hscript rfl (fun _ => rfl) rfl
      (accept_eq_begun rfl rfl rfl ..) (plays_statusRead_missed rfl s.env.now (by exact hlate) [.update .complete])
  case site1 =>
    exact runsTo_writeFailure hidle hready hword hscript
      (plays_statusRead_missed rfl s.env.now (by exact hlate) (callWriteStatus ++ afterWrite refresh))
  case site2 =>
    rw [List.append_assoc (answerStatusRead st ck)] at hscript ⊢
    exact runsTo_writeFailure hidle hready hword hscript
      (plays_setStatusBit_missed rfl s.env.now (by exact hlate) st ck (afterWrite refresh))
  case site3 =>
    have hmoves : answerStatusRead st ck ++ clocks 32 ++ answerAck ++ clocks 24 ++ missAck d =
        answerStatusRead st ck ++ (clocks 32 ++ answerAck ++ (clocks 24 ++ missAck d)) := by
      simp only [List.append_assoc]
    rw [hmoves] at hscript ⊢
    exact runsTo_writeFailure hidle hready hword hscript
      (plays_setStatusBitByte_missed rfl s.env.now (by exact hlate) st ck (afterWrite refresh))
  case refresh =>
    subst hrefresh
    have hmoves : answerStatusRead st ck ++ answerStatusWrite ++ clocks 32 ++ missAck d =
        answerStatusRead st ck ++ (answerStatusWrite ++ (clocks 32 ++ missAck d)) := by
      simp only [List.append_assoc]
    rw [hmoves] at hscript ⊢
    exact runsTo_writeFailure hidle hready hword hscript
      (plays_refresh_missed rfl s.env.now (by exact hlate) st ck [.update .complete])

/-! ## The read operations -/

theorem accept_readTemp (b : Block) (face : Bool) (body : Position) (first : SeqState) :
    b.accept (encode (.readTemp face)) body first = b.begun (if face then 0x9800 else 0x9000) face first body := by
  cases face <;> exact accept_eq_begun rfl rfl rfl b body first

theorem accept_readHumidNested (b : Block) (face : Bool) (body : Position) (first : SeqState) :
    b.accept (encode (.readHumid face false)) body first =
      b.begun (if face then 0xA800 else 0xA000) face first body := by
  cases face <;> exact accept_eq_begun rfl rfl rfl b body first

/-- Acceptance of a humidity read with a supplied temperature, which is copied and valid from then on (R222, R226). -/
def Block.begunSupplied (b : Block) (face : Bool) (first : SeqState) (body : Position) : Block :=
  { b.begun (if face then 0xAC00 else 0xA400) face first body with
    temp := b.argTemp.signExtend 32, tValid := true, tSrc := true }

theorem accept_readHumidSupplied (b : Block) (face : Bool) (body : Position) (first : SeqState) :
    b.accept (encode (.readHumid face true)) body first = b.begunSupplied face first body := by
  have hsession : isConstruction (encode (.readHumid face true)) = false := by cases face <;> rfl
  simp only [Block.accept, hsession, Bool.not_false, Bool.and_true]
  cases face <;> rfl

/-- An operation other than a temperature read that fails outside the nested measurement keeps the compensation
temperature it has (R226, R227, R229). -/
theorem fail_keeps_temp {b : Block} {word : Half} (hword : opcOf word ≠ 0x9) (hcmdl : b.cmdl = word)
    (hnest : b.nest = false) (kind : ErrKind) (site : BitVec 3) :
    b.fail kind site = { b.failedWith kind site with tValid := b.tValid } := by
  have htemp : b.isReadTemp = false := by simpa [Block.isReadTemp, hcmdl] using hword
  simp [Block.fail, Block.failedWith, htemp, hnest]

/-- A failed operation that keeps its compensation temperature, its record written out (R229). -/
theorem runsTo_keepsTemp {n : Nat} {s : State} {rest : List Act} {c : Block} {kind : ErrKind} {site : BitVec 3}
    (h : ∃ t, runsTo n s t ∧ t.env.script = rest ∧ t.blk = c.fail kind site) {word : Half} (hword : opcOf word ≠ 0x9)
    (hcmdl : c.cmdl = word) (hnest : c.nest = false) :
    ∃ t, runsTo n s t ∧ t.env.script = rest ∧ t.blk = { c.failedWith kind site with tValid := c.tValid } := by
  rwa [← fail_keeps_temp hword hcmdl hnest]

theorem opcOf_readHumidSupplied_ne (face : Bool) : opcOf (if face then 0xAC00 else 0xA400) ≠ 0x9 := by
  cases face <;> decide

theorem opcOf_readHumidNested_ne (face : Bool) : opcOf (if face then 0xA800 else 0xA000) ≠ 0x9 := by
  cases face <;> decide

/-- The block after the nested temperature measurement, at the first event of the humidity measurement (R227). -/
def Block.afterNested (b : Block) (raw : Half) (t : Time) : Block :=
  (((b.apply (.nest true)).afterMeasurement raw t).apply (.calTemp .cached)).apply (.nest false)

/-- What plays from the humidity measurement plays from the nested body too, after the temperature's (R227). -/
theorem Plays.afterNested {b : Block} {raw : Half} {t : Time} {moves : List Act} {es : List WireEvent} {q : Moment}
    (h : Plays ⟨b.afterNested raw t, callMeasureRh ++ [.update (.calHumid .cached), .update .complete], t⟩ moves es q)
    (hbusy : b.busy = true) (hturn : moves.head? = some .seq) :
    Plays ⟨b, readHumidNestedBody.todo, t⟩ (answerMeasure raw ++ moves) (measureTrace 0x03 t raw ++ es) q := by
  have hmeasure := plays_measurement (b := b.apply (.nest true)) hbusy Params.cmdMeasureTemp 4 6 raw
    (.update (.calTemp .cached) :: .update (.nest false) ::
      (callMeasureRh ++ [.update (.calHumid .cached), .update .complete])) t
  have htemp := Plays.call (byte := commandByte Params.cmdMeasureTemp) (i := .wMeasureTemp) hmeasure rfl hbusy rfl
  exact (htemp.update hbusy rfl).trans ((h.update hbusy hturn).update hbusy hturn)

section

variable {s : State} {face : Bool} {moves rest : List Act} {es : List WireEvent} {c : Block} {kind : ErrKind}
  {site : BitVec 3} {t' : Time} (hidle : s.blk.busy = false) (hready : s.blk.ready = true)

include hidle hready

theorem runsTo_readTempFailure
    (hscript : s.env.script = .host (.write 0 (if face then 0x9800 else 0x9000)) :: (moves ++ rest))
    (hplays : Plays
      ⟨s.blk.begun (if face then 0x9800 else 0x9000) face .commandSent readTempBody, readTempBody.todo, s.env.now⟩
      moves es ⟨c, [.raise kind site], t'⟩) :
    ∃ t, runsTo (1 + moves.length) s t ∧ t.env.script = rest ∧ t.blk = c.fail kind site :=
  runsTo_failure hidle (fun _ => hready) hscript (decodeHost_readTemp face) (fun _ => rfl) rfl
    (accept_readTemp ..) hplays

theorem runsTo_suppliedFailure
    (hscript : s.env.script = .host (.write 0 (if face then 0xAC00 else 0xA400)) :: (moves ++ rest))
    (hplays : Plays
      ⟨s.blk.begunSupplied face .commandSent readHumidSuppliedBody, readHumidSuppliedBody.todo, s.env.now⟩
      moves es ⟨c, [.raise kind site], t'⟩) :
    ∃ t, runsTo (1 + moves.length) s t ∧ t.env.script = rest ∧ t.blk = c.fail kind site :=
  runsTo_failure hidle (fun _ => hready) hscript (decodeHost_readHumidSupplied face) (fun _ => rfl) rfl
    (accept_readHumidSupplied ..) hplays

theorem runsTo_nestedFailure
    (hscript : s.env.script = .host (.write 0 (if face then 0xA800 else 0xA000)) :: (moves ++ rest))
    (hplays : Plays
      ⟨s.blk.begun (if face then 0xA800 else 0xA000) face .commandSent readHumidNestedBody, readHumidNestedBody.todo,
        s.env.now⟩
      moves es ⟨c, [.raise kind site], t'⟩) :
    ∃ t, runsTo (1 + moves.length) s t ∧ t.env.script = rest ∧ t.blk = c.fail kind site :=
  runsTo_failure hidle (fun _ => hready) hscript (decodeHost_readHumidNested face) (fun _ => rfl) rfl
    (accept_readHumidNested ..) hplays

end

/-- Settles O60: each row of the table is a measurement cut short, the nested one done before it or not. -/
theorem measurementFailuresLeaveTheirRecord : Obligations.MeasurementFailuresLeaveTheirRecord := by
  intro s face raw d rest hidle hready
  refine ⟨fun hlate hscript => ?temp4, fun hlate hscript => ?temp6, fun hlate hscript => ?supplied5,
    fun hlate hscript => ?supplied7, fun hlate hscript => ?nested4, fun hlate hscript => ?nested5,
    fun hlate hscript => ?nested7⟩
  case temp4 =>
    exact runsTo_readTempFailure hidle hready hscript <| .call (i := .wMeasureTemp)
      (plays_measurement_missed rfl s.env.now (by exact hlate) Params.cmdMeasureTemp 4 6 _) rfl rfl rfl
  case temp6 =>
    exact runsTo_readTempFailure hidle hready hscript <| .call (i := .wMeasureTemp)
      (plays_measurement_neverReady rfl s.env.now (by exact hlate) Params.cmdMeasureTemp 4 6 _) rfl rfl rfl
  case supplied5 =>
    have hfails := runsTo_suppliedFailure hidle hready hscript <| .call (i := .wMeasureRh)
      (plays_measurement_missed rfl s.env.now (by exact hlate) Params.cmdMeasureRh 5 7 _) rfl rfl rfl
    exact runsTo_keepsTemp hfails (opcOf_readHumidSupplied_ne face) rfl rfl
  case supplied7 =>
    have hfails := runsTo_suppliedFailure hidle hready hscript <| .call (i := .wMeasureRh)
      (plays_measurement_neverReady rfl s.env.now (by exact hlate) Params.cmdMeasureRh 5 7 _) rfl rfl rfl
    exact runsTo_keepsTemp hfails (opcOf_readHumidSupplied_ne face) rfl rfl
  case nested4 =>
    exact runsTo_nestedFailure hidle hready hscript <| .update (u := .nest true) (.call (i := .wMeasureTemp)
      (plays_measurement_missed rfl s.env.now (by exact hlate) Params.cmdMeasureTemp 4 6 _) rfl rfl rfl) rfl rfl
  case nested5 =>
    rw [List.append_assoc (answerMeasure raw)] at hscript ⊢
    have hfails := runsTo_nestedFailure hidle hready hscript <| .afterNested
      (.call (i := .wMeasureRh)
        (plays_measurement_missed rfl s.env.now (by exact hlate) Params.cmdMeasureRh 5 7 _) rfl rfl rfl) rfl rfl
    exact runsTo_keepsTemp hfails (opcOf_readHumidNested_ne face) rfl rfl
  case nested7 =>
    have hmoves : answerMeasure raw ++ clocks 32 ++ answerAck ++ missReady d =
        answerMeasure raw ++ (clocks 32 ++ answerAck ++ missReady d) := by
      simp only [List.append_assoc]
    rw [hmoves] at hscript ⊢
    have hfails := runsTo_nestedFailure hidle hready hscript <| .afterNested
      (.call (i := .wMeasureRh)
        (plays_measurement_neverReady rfl s.env.now (by exact hlate) Params.cmdMeasureRh 5 7 _) rfl rfl rfl) rfl rfl
    exact runsTo_keepsTemp hfails (opcOf_readHumidNested_ne face) rfl rfl

end Sys2Proof.Machine
end

section
/-! A byte received and the temperature read (43_result_decoder.md rules R170 and R173, 45_measurement.md rule R225):
what `readByte` plays from where a block stands at it, and the end of `READ_TEMP` in either face. -/

namespace Sys2Proof.Machine

/-- What plays from where a running block stands up to an event that follows is a run with that trace, which leaves the
block as played with its position at that event. -/
theorem Plays.run_to_event {s : State} {e f : SeqEvent} {now more : List Micro} {moves rest : List Act}
    {es : List WireEvent} {c : Block} {t : Time}
    (h : Plays ⟨s.blk, .event f :: now, s.env.now⟩ moves es ⟨c, .event e :: more, t⟩)
    (hat : s.blk.step.todo = .event f :: now) (hscript : s.env.script = moves ++ rest) :
    ∃ u, Takes moves.length s es u ∧ u.env.script = rest ∧ u.env.now = t ∧ u.blk = c.moveTo (.event e :: more) := by
  have hstands : s.blk = s.blk.trail (.event f :: now) := by rw [trail_event, moveTo_standing hat]
  obtain ⟨u, htakes, hblk, hnow, hrest⟩ := h s rest ⟨hstands, rfl, hscript⟩
  exact ⟨u, htakes, hrest, hnow, hblk.trans (trail_event c e more)⟩

/-- Settles O24: the byte's bits fill the low half of `ACC` as `readByte` plays, and the run stops at the event that
follows. -/
theorem readByteReceivesMsbFirst : Obligations.ReadByteReceivesMsbFirst := by
  intro s v e todo rest hscript hbusy hat
  obtain ⟨t, htakes, hrest, hnow, hblk⟩ :=
    (plays_readByte hbusy v (.event e :: todo) s.env.now).run_to_event hat hscript
  exact ⟨htakes.trace_eq, t, htakes.runsTo, hrest, hnow, hblk⟩

/-- The temperature is the rule's formula, the slope chosen by the resolution (R252). -/
theorem calT_formula (raw : Half) (res : Bool) :
    calT raw res = BitVec.ofInt 32 (-3970 + (if res then 4 else 1) * raw.toNat) := by
  cases res <;> rfl

/-- Settles O39: the body of `READ_TEMP` plays one measurement, and its last step calibrates the raw code with the
cached mode and completes. -/
theorem readTempMeasuresAndCalibrates : Obligations.ReadTempMeasuresAndCalibrates := by
  intro s face raw rest hidle hready hscript
  obtain ⟨t, htakes, hblk, hnow, hrest⟩ := takes_operation hidle hready hscript (decodeHost_readTemp face)
    (fun _ => rfl) rfl (plays_readTempBody rfl s.env.now raw)
  rw [accept_readTemp] at hblk
  refine ⟨t, htakes.runsTo, hrest, hnow, ?_⟩
  rw [← calT_formula]
  exact hblk

end Sys2Proof.Machine
end

section
/-! The status manager's operations from acceptance to `Done` (44_status_manager.md rules R190 to R205): the byte a
status write sends, and what `INIT`, `SOFT_RESET`, `SET_STATUS_BIT` and the wrappers leave behind. -/

namespace Sys2Proof.Machine

/-! ## The byte a status write sends (R193) -/

/-- A byte with one bit set has that bit only. -/
theorem getLsbD_bitMask (n : Nat) {i : Nat} (hi : i < 8) : (1#8 <<< n).getLsbD i = decide (i = n) := by
  rw [← BitVec.twoPow_eq, BitVec.getLsbD_twoPow]
  by_cases h : n = i
  · simp [h, hi]
  · simp [h, Ne.symm h]

/-- The mask a cleared byte goes through keeps the low three bits. -/
theorem getLsbD_lowThree {i : Nat} (hi : i < 8) : (0x07#8).getLsbD i = decide (i < 3) := by
  revert i
  decide

theorem getLsbD_newStatus_set (cur : Byte) (bit : BitVec 3) {i : Nat} (hi : i < 8) :
    (newStatus cur bit true).getLsbD i = (cur.getLsbD i || decide (i = bit.toNat)) := by
  rw [newStatus, if_pos rfl, BitVec.getLsbD_or, getLsbD_bitMask _ hi]

theorem getLsbD_newStatus_clear (cur : Byte) (bit : BitVec 3) {i : Nat} (hi : i < 8) :
    (newStatus cur bit false).getLsbD i = (cur.getLsbD i && decide (i ≠ bit.toNat) && decide (i < 3)) := by
  rw [newStatus, if_neg Bool.false_ne_true, BitVec.getLsbD_and, BitVec.getLsbD_and, BitVec.getLsbD_not,
    getLsbD_bitMask _ hi, getLsbD_lowThree hi, decide_eq_true hi, Bool.true_and, decide_not]

/-- Settles O32: a set bit is or-ed in; a cleared one is masked out, and the high five with it. -/
theorem newStatusBitByBit : Obligations.NewStatusBitByBit :=
  fun cur bit _ hi => ⟨getLsbD_newStatus_set cur bit hi, getLsbD_newStatus_clear cur bit hi⟩

/-- Settles O33: the five fields of R191 are those of the model's view of the byte. -/
theorem statusFlagsDecode : Obligations.StatusFlagsDecode :=
  fun _ => ⟨rfl, rfl, rfl, rfl, rfl⟩

/-! ## `SOFT_RESET` -/

/-- Settles O35: the body plays the soft reset and its settle delay, with no handshake to count. -/
theorem softResetOnlyMarksTheCache : Obligations.SoftResetOnlyMarksTheCache := by
  intro s rest hidle hready hscript
  obtain ⟨t, htakes, hblk, hnow, hrest⟩ := takes_operation (i := .softReset) hidle hready hscript rfl (fun _ => rfl)
    rfl (plays_softResetBody rfl s.env.now)
  rw [accept_eq_begun rfl rfl rfl] at hblk
  exact ⟨t, htakes.runsTo, hrest, hnow, hblk⟩

/-! ## The calls that answer -/

section

variable {b : Block} (hbusy : b.busy = true) (t : Time)

include hbusy

/-- `call getStatus` answered at its first poll, whatever follows it (R190). -/
theorem plays_callGetStatus (st ck : Byte) (todo : List Micro) :
    Plays ⟨b, callGetStatus ++ todo, t⟩ (answerStatusRead st ck) (statusReadTrace t st ck)
      ⟨b.afterStatusRead st ck t, .update .refreshMode :: todo, t⟩ :=
  .call (i := .wReadStatus) (plays_statusRead hbusy b.step.kind st ck todo t) rfl hbusy rfl

/-- `call setStatusBit` answered at its first polls, whatever follows it (R192). -/
theorem plays_callSetStatusBit (st ck : Byte) (todo : List Micro) :
    Plays ⟨b, callSetStatusBit ++ todo, t⟩ (answerStatusRead st ck ++ answerStatusWrite)
      (statusReadTrace t st ck ++ statusWriteTrace t (newStatus st b.step.bit b.step.val))
      ⟨b.afterSetStatusBit st ck t, .update .countAck :: todo, t⟩ := by
  have hread := plays_callGetStatus hbusy t st ck (callWriteStatus ++ todo)
  have hwrite := Plays.call (byte := commandByte Params.cmdWriteStatus) (i := .wWriteStatus)
    (plays_statusWrite (b := (b.afterStatusRead st ck t).apply .refreshMode) hbusy
      (newStatus st b.step.bit b.step.val) todo t) rfl hbusy rfl
  exact hread.trans (hwrite.update hbusy rfl)

/-- A wrapper: the write, its last handshake counted with the first event of the refresh, and the refresh (R205). -/
theorem plays_wrapperBody (st ck st' ck' : Byte) (todo : List Micro) :
    Plays ⟨b, callSetStatusBit ++ (callGetStatus ++ todo), t⟩
      (answerStatusRead st ck ++ answerStatusWrite ++ answerStatusRead st' ck')
      (statusReadTrace t st ck ++ statusWriteTrace t (newStatus st b.step.bit b.step.val) ++ statusReadTrace t st' ck')
      ⟨((b.afterSetStatusBit st ck t).apply .countAck).afterStatusRead st' ck' t, .update .refreshMode :: todo, t⟩ := by
  have hwrite := plays_callSetStatusBit hbusy t st ck (callGetStatus ++ todo)
  have hrefresh := plays_callGetStatus (b := (b.afterSetStatusBit st ck t).apply .countAck) hbusy t st' ck' todo
  exact hwrite.trans (hrefresh.update hbusy rfl)

/-- `construct`: the soft reset with its settle delay, then the status read (R199). -/
theorem plays_construct (st ck : Byte) (todo : List Micro) :
    Plays ⟨b, callSoftReset ++ callGetStatus ++ todo, t⟩ (answerSoftReset ++ answerStatusRead st ck)
      (softResetTrace t ++ statusReadTrace (t + 11) st ck)
      ⟨(b.afterSoftReset t).afterStatusRead st ck (t + 11), .update .refreshMode :: todo, t + 11⟩ := by
  have hreset := Plays.call (byte := commandByte Params.cmdSoftReset) (i := .wSoftReset)
    (plays_softReset hbusy (callGetStatus ++ todo) t) rfl hbusy rfl
  exact hreset.trans (plays_callGetStatus (b := b.afterSoftReset t) hbusy (t + 11) st ck todo)

end

/-! ## `INIT` -/

/-- An operation that needs no session, written to `CMD` of an idle block, plays its body after the one step of its
acceptance (R41, R222). -/
theorem takes_sessionlessOperation {s : State} {v : Word} {i : Instr} {first : SeqState} {body : Position}
    {moves rest : List Act} {es : List WireEvent} {q : Moment} (hidle : s.blk.busy = false)
    (hscript : s.env.script = .host (.write 0 v) :: (moves ++ rest)) (hdec : decodeHost (v.setWidth 16) = .instr i)
    (hexec : ∀ u, exec i u = issue i false first body u) (hwaits : waitsForEvent body.todo = true)
    (hplays : Plays ⟨s.blk.accept (encode i) body first, body.todo, s.env.now⟩ moves es q) :
    ∃ t, Takes (1 + moves.length) s es t ∧ t.At q rest := by
  have haccepts : issue i false first body (s.movedOn (moves ++ rest)) =
      .next { s.movedOn (moves ++ rest) with blk := s.blk.accept (encode i) body first } := by
    simp [issue, State.movedOn, hidle]
  have hstep := (step_hostWord hscript hdec).trans ((hexec _).trans haccepts)
  obtain ⟨t, htakes, ht⟩ := hplays { s.movedOn (moves ++ rest) with blk := s.blk.accept (encode i) body first } rest
    ⟨(trail_of_waitsForEvent hwaits (s.blk.accept (encode i) body first)).symm, rfl, rfl⟩
  rw [Nat.add_comm]
  exact ⟨t, .step hstep htakes, ht⟩

/-- Settles O34: the body plays `construct`; its last step refreshes the mode, sets `READY` and completes. -/
theorem initConstructsTheSession : Obligations.InitConstructsTheSession := by
  intro s st ck rest hidle hscript
  obtain ⟨t, htakes, hblk, hnow, hrest⟩ := takes_sessionlessOperation (i := .init) hidle hscript rfl (fun _ => rfl) rfl
    (plays_construct rfl s.env.now st ck [.update .setReady, .update .complete])
  rw [accept_eq_begun_construction rfl rfl rfl] at hblk
  exact ⟨t, htakes.runsTo, hrest, hnow, hblk⟩

/-! ## `SET_STATUS_BIT` and the wrappers -/

/-- The body of a status write plays from the block its acceptance leaves (R201, R205, R222). -/
theorem takes_writesStatus {s : State} {word : Half} {bit : BitVec 3} {val refresh : Bool} {moves rest : List Act}
    {es : List WireEvent} {q : Moment} (hidle : s.blk.busy = false) (hready : s.blk.ready = true)
    (hword : writesStatus word bit val refresh)
    (hscript : s.env.script = .host (.write 0 (word.setWidth 32)) :: (moves ++ rest))
    (hplays : Plays
      ⟨s.blk.begun word false .commandSent (writeBody bit val refresh), callSetStatusBit ++ afterWrite refresh,
        s.env.now⟩
      moves es q) :
    ∃ t, Takes (1 + moves.length) s es t ∧ t.At q rest := by
  obtain ⟨i, hcommand⟩ := writesStatus_command hword
  have hencode : encode i = word := encode_of_decodeHost hcommand.decodes
  have hdec : decodeHost ((word.setWidth 32).setWidth 16) = .instr i := by
    have hlow : (word.setWidth 32).setWidth 16 = word := by simp
    rw [hlow, hcommand.decodes]
  refine takes_operation hidle hready hscript hdec hcommand.exec_eq rfl ?_
  rw [hencode, accept_eq_begun hcommand.no_temp hcommand.no_raw hcommand.no_construction, hcommand.synchronous]
  exact hplays

/-- The word of `SET_STATUS_BIT` as the host writes it to the 32-bit register. -/
theorem setWidth_setStatusBit (bit : BitVec 3) (val : Bool) :
    (0x4000#16 ||| (BitVec.ofBool val).setWidth 16 <<< 9 ||| bit.setWidth 16 <<< 6).setWidth 32 =
      0x4000#32 ||| (BitVec.ofBool val).setWidth 32 <<< 9 ||| bit.setWidth 32 <<< 6 := by
  revert bit val
  decide

/-- Settles O37: the body plays a status read and the write of the byte computed from it; the last handshake is counted
in the step that completes. -/
theorem setStatusBitWritesTheNewByte : Obligations.SetStatusBitWritesTheNewByte := by
  intro s bit val st ck rest hidle hready hscript
  rw [← setWidth_setStatusBit] at hscript
  obtain ⟨t, htakes, hblk, hnow, hrest⟩ := takes_writesStatus (refresh := false) hidle hready rfl hscript
    (plays_callSetStatusBit rfl s.env.now st ck [.update .complete])
  exact ⟨t, htakes.runsTo, hrest, hnow, hblk⟩

/-- Settles O38: each of the six words writes its bit and reads the status again. -/
theorem wrappersWriteAndRefresh : Obligations.WrappersWriteAndRefresh := by
  intro s word bit val st ck st' ck' rest hidle hready hword hscript
  obtain ⟨t, htakes, hblk, hnow, hrest⟩ := takes_writesStatus (refresh := true) hidle hready hword hscript
    (plays_wrapperBody rfl s.env.now st ck st' ck' [.update .complete])
  exact ⟨t, htakes.runsTo, hrest, hnow, hblk⟩

end Sys2Proof.Machine
end

section
/-! Acceptance (45_measurement.md rule R222): what each host operation's instruction answers on an idle block that has
the session it needs (44_status_manager.md rules R194 to R203, 46_calibration.md rules R257 and R258). -/

namespace Sys2Proof.Machine

/-- A command whose session requirement an idle block meets is accepted (R41, R222). -/
theorem exec_accepts {i : Instr} {needsReady : Bool} {first : SeqState} {body : Position} {s : State} {a : Block}
    (hexec : exec i s = issue i needsReady first body s) (hidle : s.blk.busy = false)
    (hready : needsReady = true → s.blk.ready = true) (haccept : s.blk.accept (encode i) body first = a) :
    exec i s = .next { s with blk := a } := by
  rw [hexec, ← haccept]
  rcases issue_cases i needsReady first body s with ⟨haccepted, -⟩ | ⟨-, hbusy | ⟨hneeds, hnot⟩⟩
  · exact haccepted
  · cases hidle.symm.trans hbusy
  · cases (hready hneeds).symm.trans hnot

/-- Settles O8: `INIT` needs no session, and its acceptance forgets the one there was. -/
theorem initIsAccepted : Obligations.InitIsAccepted :=
  fun _ hidle => exec_accepts rfl hidle nofun (accept_eq_begun_construction rfl rfl rfl ..)

/-! ## The status operations -/

theorem StatusCommand.exec_accepts {word : Half} {i : Instr} {body : Position} (h : StatusCommand word i body)
    {s : State} (hidle : s.blk.busy = false) (hready : s.blk.ready = true) :
    exec i s = .next { s with blk := s.blk.begun word false .commandSent body } := by
  refine Machine.exec_accepts (h.exec_eq s) hidle (fun _ => hready) ?_
  rw [encode_of_decodeHost h.decodes, accept_eq_begun h.no_temp h.no_raw h.no_construction, h.synchronous]

theorem exec_setStatusBit_accepts {s : State} (hidle : s.blk.busy = false) (hready : s.blk.ready = true) {bit : Nat}
    (hbit : bit < 8) (val : Bool) :
    exec (.setStatusBit bit val) s = .next { s with
      blk := s.blk.begun (0x4000#16 ||| (BitVec.ofBool val).setWidth 16 <<< 9 ||| BitVec.ofNat 16 bit <<< 6) false
        .commandSent (bodyOf callSetStatusBit (bit := BitVec.ofNat 3 bit) (val := val)) } := by
  have hindex : (BitVec.ofNat 3 bit).toNat = bit := by simpa using hbit
  have hfield : (BitVec.ofNat 3 bit).setWidth 16 = BitVec.ofNat 16 bit :=
    BitVec.eq_of_toNat_eq (by simp only [BitVec.toNat_setWidth, hindex, BitVec.toNat_ofNat])
  have haccepts := (statusCommand_setStatusBit (BitVec.ofNat 3 bit) val).exec_accepts hidle hready
  rw [hindex, hfield] at haccepts
  exact haccepts

/-- Settles O9: none of the seven copies an operand or constructs a session. -/
theorem statusOperationsAreAccepted : Obligations.StatusOperationsAreAccepted := by
  intro s hidle hready
  refine ⟨?softReset, ?getStatus, fun bit val hbit => exec_setStatusBit_accepts hidle hready hbit val, ?setLowRes,
    ?setHighRes, fun val => ?setHeater, fun val => ?setOtpReload⟩
  case softReset | getStatus | setLowRes | setHighRes =>
    exact exec_accepts rfl hidle (fun _ => hready) (accept_eq_begun rfl rfl rfl ..)
  case setHeater | setOtpReload =>
    cases val <;> exact exec_accepts rfl hidle (fun _ => hready) (accept_eq_begun rfl rfl rfl ..)

/-! ## The read operations -/

/-- Settles O10: only the humidity read with `TV = 1` copies an operand. -/
theorem readOperationsAreAccepted : Obligations.ReadOperationsAreAccepted :=
  fun _ _ hidle hready =>
    ⟨exec_accepts rfl hidle (fun _ => hready) (accept_readTemp ..),
      exec_accepts rfl hidle (fun _ => hready) (accept_readHumidNested ..),
      exec_accepts rfl hidle (fun _ => hready) (accept_readHumidSupplied ..)⟩

/-! ## The calibrations -/

/-- Acceptance of a word that copies operands but does not construct: what it copies, and whether a temperature is
valid from then on (R222). -/
theorem accept_eq_begun_copied {word : Half} (hinit : isConstruction word = false) (b : Block) (body : Position)
    (first : SeqState) :
    b.accept word body first = { b.begun word (faceOf word) first body with
      temp := if takesArgTemp word then suppliedTemp b.argTemp else b.temp
      raw := if takesArgRaw word then b.argRaw else b.raw
      tValid := takesArgTemp word, tSrc := takesArgTemp word } := by
  simp [Block.accept, Block.begun, Block.cleared, hinit]

/-- Settles O11: both calibrations copy the raw code, the humidity's also the temperature; neither needs a session. -/
theorem calibrationsAreAccepted : Obligations.CalibrationsAreAccepted := by
  intro s res hidle
  refine ⟨exec_accepts rfl hidle nofun ?temp, exec_accepts rfl hidle nofun ?humid⟩
  case temp | humid =>
    cases res <;> exact accept_eq_begun_copied rfl ..

end Sys2Proof.Machine
end

section
/-! The two waits of a measurement from where a block stands at them (45_measurement.md rules R224, R229, R233 and
R237): the failure at the bound, and the arming at the first poll. -/

namespace Sys2Proof.Machine

/-! ## Failure at the bound -/

theorem and_not_eq_ite (p : Prop) [Decidable p] (nested valid : Bool) :
    (valid && !(decide p || nested)) = if p ∨ nested = true then false else valid := by
  by_cases hp : p
  · simp [hp]
  · cases nested <;> simp [hp]

/-- What a failure leaves of `T_VALID`: a temperature read and the nested measurement lose it (R229, R284). -/
theorem fail_eq_failedWith (b : Block) (kind : ErrKind) (site : BitVec 3) :
    b.fail kind site = { b.failedWith kind site with
      tValid := if b.cmdl.extractLsb' 12 4 = 0x9 ∨ b.nest = true then false else b.tValid } := by
  rw [← and_not_eq_ite]
  rfl

/-- What plays from where a running block stands up to a `raise` is a run into that failure. -/
theorem Plays.runsTo_raise {s : State} {e : SeqEvent} {todo : List Micro} {moves rest : List Act}
    {es : List WireEvent} {c : Block} {kind : ErrKind} {site : BitVec 3} {t' : Time}
    (h : Plays ⟨s.blk, .event e :: todo, s.env.now⟩ moves es ⟨c, [.raise kind site], t'⟩)
    (hat : s.blk.step.todo = .event e :: todo) (hscript : s.env.script = moves ++ rest) :
    ∃ t, runsTo moves.length s t ∧ t.env.script = rest ∧ t.blk = c.fail kind site := by
  have hstands : s.blk = s.blk.trail (.event e :: todo) := by rw [trail_event, moveTo_standing hat]
  obtain ⟨t, htakes, hblk, -, hrest⟩ := h s rest ⟨hstands, rfl, hscript⟩
  exact ⟨t, htakes.runsTo, hrest, hblk⟩

/-- Settles O26: past its bound a measurement wait raises at once, a handshake after parking DATA low. -/
theorem timeoutsFailTheOperation : Obligations.TimeoutsFailTheOperation := by
  refine ⟨fun s kind site todo rest hscript hbusy hat hlate => ?ack,
    fun s site todo rest hscript hbusy hat hlate => ?ready⟩
  case ack =>
    have hcheck := plays_checkPassed (w := .ack kind site) (t := s.env.now) hbusy hlate todo
    have hpark := plays_pin hbusy (.data false) [.raise kind site] s.env.now
    obtain ⟨t, hruns, hrest, hblk⟩ := (hcheck.trans hpark).runsTo_raise hat hscript
    exact ⟨t, hruns, hrest, hblk.trans (fail_eq_failedWith (s.blk.drive (.data false)) kind site)⟩
  case ready =>
    have hcheck := plays_checkPassed (w := .ready site) (t := s.env.now) hbusy hlate todo
    obtain ⟨t, hruns, hrest, hblk⟩ := Plays.runsTo_raise hcheck hat hscript
    exact ⟨t, hruns, hrest, hblk.trans (fail_eq_failedWith s.blk .measurementTimeout site)⟩

/-! ## Arming at the first poll -/

/-- What a poll does with DATA an input, by what the sensor does to DATA (R124, R160, R224). -/
theorem perform_poll {u : State} (hin : u.blk.dataDir = .inp) (w : Wait) (rest : List Micro) :
    u.perform rest (.poll w) =
      if u.env.sensorPull then u.performed (u.blk.granted w) (.sample false) rest
      else u.performed u.blk (.sample true) (.event (.check w) :: rest) := by
  rw [State.perform, sampled_inp u _ hin]
  cases u.env.sensorPull <;> rfl

/-- The first poll of a measurement wait arms in its own step, and disarms again where it finds DATA low (R233,
R237). -/
theorem step_firstPoll {s : State} {site : BitVec 3} {more : List Micro} {rest : List Act}
    (h : s.env.script = .seq :: rest) (hbusy : s.blk.busy = true) (hin : s.blk.dataDir = .inp)
    (hwaits : waitsForEvent more = true)
    (hat : s.blk.step.todo = .update .arm :: .event (.poll (.ready site)) :: more) :
    ∃ t, step s = .next t ∧
      t.blk =
        if s.env.sensorPull then ((s.blk.apply .arm).granted (.ready site)).moveTo more
        else (s.blk.apply .arm).moveTo (.event (.check (.ready site)) :: more) := by
  have hlead : s.blk.lead s.blk.step.todo = (s.blk.apply .arm).moveTo (.event (.poll (.ready site)) :: more) := by
    rw [hat, lead_update, lead_event]
  have hstep := (step_event (e := .poll (.ready site)) (todo := more) h hbusy (by rw [hlead]; rfl) nofun).trans
    (perform_poll (by rw [hlead]; exact hin) (.ready site) more)
  have hmoved : (s.movedOn rest).env.sensorPull = s.env.sensorPull := rfl
  rw [hlead, hmoved] at hstep
  cases hpull : s.env.sensorPull with
  | false =>
    rw [hpull] at hstep
    exact ⟨_, hstep, rfl⟩
  | true =>
    rw [hpull] at hstep
    exact ⟨_, hstep, trail_of_waitsForEvent hwaits _⟩

/-- Settles O28: the poll that finds DATA high leaves the flags as `FACE` armed them, the one that finds it low leaves
both 0. -/
theorem armingFollowsTheFace : Obligations.ArmingFollowsTheFace := by
  intro s site more rest h hbusy hin hwatch htimer hwaits hat
  obtain ⟨t, hstep, hblk⟩ := step_firstPoll h hbusy hin hwaits hat
  refine ⟨t, hstep, ?_⟩
  rw [hblk]
  cases s.env.sensorPull with
  | false => simp [hwatch, htimer]
  | true => simp

end Sys2Proof.Machine
end

section
/-! The humidity read from acceptance to its one outcome (45_measurement.md rules R226, R227 and R236, 60_exceptions.md
rule R285). -/

namespace Sys2Proof.Machine

/-- Settles O40: the body plays one measurement on the block whose temperature acceptance supplied, and its last step
compensates with that temperature. -/
theorem readHumidWithSuppliedTemperature : Obligations.ReadHumidWithSuppliedTemperature := by
  intro s face raw rest hidle hready hscript
  obtain ⟨t, htakes, hblk, hnow, hrest⟩ := takes_operation hidle hready hscript (decodeHost_readHumidSupplied face)
    (fun _ => rfl) rfl (plays_readHumidSuppliedBody rfl s.env.now raw)
  rw [accept_readHumidSupplied] at hblk
  exact ⟨t, htakes.runsTo, hrest, hnow, hblk⟩

/-- Settles O41: the body plays the temperature measurement and then the humidity's, which ends in the one completion;
both calibrations use the cached mode, which neither changes. -/
theorem readHumidWithNestedMeasurement : Obligations.ReadHumidWithNestedMeasurement := by
  intro s face rawT rawH rest hidle hready hscript
  obtain ⟨t, htakes, hblk, hnow, hrest⟩ := takes_operation hidle hready hscript (decodeHost_readHumidNested face)
    (fun _ => rfl) rfl (plays_readHumidNestedBody rfl s.env.now rawT rawH)
  rw [accept_readHumidNested] at hblk
  exact ⟨t, htakes.runsTo, hrest, hnow, hblk⟩

/-- Settles O44: the nested temperature measurement is never ready, and its `raise` ends the whole operation before the
humidity command. -/
theorem nestedTimeoutFailsTheHumidityRead : Obligations.NestedTimeoutFailsTheHumidityRead := by
  intro s face d rest hidle hready hlate hscript
  have hmoves : clocks 32 ++ answerAck ++ clocks 2 ++ silentRounds [d] = clocks 32 ++ answerAck ++ missReady d :=
    List.append_assoc ..
  rw [hmoves] at hscript ⊢
  exact runsTo_nestedFailure hidle hready hscript <| .update (u := .nest true) (.call (i := .wMeasureTemp)
    (plays_measurement_neverReady rfl s.env.now (by exact hlate) Params.cmdMeasureTemp 4 6 _) rfl rfl rfl) rfl rfl

end Sys2Proof.Machine
end

section
/-! The end of an operation (45_measurement.md rules R228 to R230, 60_exceptions.md rules R287 and R293): the terminal
step is the sequencer's, it raises the interrupt of an asynchronous operation, and nothing late follows it. -/

namespace Sys2Proof.Machine

/-! ## The interrupt -/

/-- An interrupt pending because the sequencer completed or failed an operation whose face is `face` (R228, R229). -/
def Block.PendsAtEnd (face : Bool) (b : Block) : Prop :=
  b.face = face ∧ (b.irqPend = true → b.busy = false ∧ b.done = true ∧ face = true)

/-- Completion and failure alike pend the interrupt of an operation accepted with `FACE = 1`. -/
theorem pendsAtEnd_of_terminal {face : Bool} {b c : Block} (h : b.PendsAtEnd face) (hface : c.face = b.face)
    (hpend : c.irqPend = (b.irqPend || b.face)) (hidle : c.busy = false) (hdone : c.done = true) :
    c.PendsAtEnd face := by
  obtain ⟨hb, hirq⟩ := h
  refine ⟨hface.trans hb, fun hc => ⟨hidle, hdone, ?_⟩⟩
  rw [hpend, Bool.or_eq_true] at hc
  rcases hc with hpended | hasync
  · exact (hirq hpended).2.2
  · exact hb.symm.trans hasync

theorem pendsAtEnd_kept (face : Bool) : KeptBySequencer (Block.PendsAtEnd face) where
  apply b u h := by
    cases u with
    | complete => exact pendsAtEnd_of_terminal h rfl rfl rfl rfl
    | _ => exact h
  fail b kind site h := pendsAtEnd_of_terminal h rfl rfl rfl rfl
  moveTo _ _ h := h
  drive _ e h := by cases e <;> exact h
  granted _ w h := by cases w <;> exact h
  received _ _ h := h
  latched _ _ h := h

/-- The host's register writes only ever lower `IRQ_PEND`, by `ACK_DONE` (R43). -/
theorem hostWrite_lowers_irqPend {r : Nat} {v : Word} {s : State} (hpend : (hostWrite r v s).blk.irqPend = true) :
    s.blk.irqPend = true := by
  rcases hostWrite_cases r v s with ⟨-, h⟩ | h | ⟨-, _, _, _, _, h⟩
  · rw [h] at hpend
    rcases writeCtrl_cases s.blk v with hctrl | ⟨-, hctrl⟩
    · rwa [hctrl] at hpend
    · rw [hctrl] at hpend
      cases hpend
  · rwa [h] at hpend
  · rwa [h] at hpend

/-- An interrupt the sequencer's move pends is that of the operation the move ends (R287). -/
theorem SequencerMove.irqPend_rises {u t : State} (move : SequencerMove u (.next t)) (hlow : u.blk.irqPend = false)
    (hhigh : t.blk.irqPend = true) :
    u.blk.busy = true ∧ t.blk.busy = false ∧ t.blk.done = true ∧ u.blk.face = true := by
  have hbefore : u.blk.PendsAtEnd u.blk.face := ⟨rfl, fun hpend => by cases hlow.symm.trans hpend⟩
  refine ⟨?_, (move.keeps (pendsAtEnd_kept u.blk.face) hbefore).2 hhigh⟩
  cases move with
  | rests _ hr =>
    cases hr
    cases hlow.symm.trans hhigh
  | calls _ _ _ hbusy | advances hbusy => exact hbusy

/-- Settles O55: only the sequencer raises `IRQ_PEND`, in the step that ends the operation. -/
theorem interruptRisesOnlyAtCompletion : Obligations.InterruptRisesOnlyAtCompletion := by
  intro s t hstep
  refine ⟨rfl, fun hlow hhigh => ?_⟩
  have hcase := step_case s
  rw [hstep] at hcase
  cases hcase with
  | sequencer u turn move =>
    rw [← turn.blk_eq] at hlow ⊢
    exact move.irqPend_rises hlow hhigh
  | accept _ _ _ _ _ _ _ _ _ hr | reset _ _ hr =>
    cases hr
    cases hhigh
  | read _ _ _ hr | refuse _ _ _ hr | sensor _ _ _ hr | tick _ _ _ hr =>
    cases hr
    cases hlow.symm.trans hhigh
  | write r v rest _ hr =>
    cases hr
    cases hlow.symm.trans (hostWrite_lowers_irqPend (s := s.movedOn rest) hhigh)

/-! ## The outcome -/

/-- `RESET` aside, only the sequencer ends an operation, and it sets `DONE` in that step (R228, R229). -/
theorem step_ends_done {s t : State} (hbusy : s.blk.busy = true) (hstep : step s = .next t)
    (hidle : t.blk.busy = false) (hnoReset : ∀ rest, s.env.script ≠ .reset :: rest) : t.blk.done = true := by
  have hcase := step_case s
  rw [hstep] at hcase
  cases hcase with
  | sequencer u turn move =>
    have hrunning : u.blk.busy = true := turn.blk_eq ▸ hbusy
    exact (move.keeps done_kept (.inl hrunning)).resolve_left (by simp [hidle])
  | accept _ _ _ _ _ _ _ hquiet => cases hquiet.symm.trans hbusy
  | read _ _ _ hr | refuse _ _ _ hr | sensor _ _ _ hr | tick _ _ _ hr =>
    cases hr
    cases hidle.symm.trans hbusy
  | write r v rest _ hr =>
    cases hr
    obtain ⟨-, _, _, _, _, _, _, _, _, _, hblk⟩ := hostWrite_frame r v (s.movedOn rest)
    rw [hblk] at hidle
    cases hidle.symm.trans hbusy
  | reset rest h => exact absurd h (hnoReset rest)

/-- A terminal block with the invariant shows completion without error, or failure with one and no humidity (R58). -/
theorem Block.Inv.outcome {b : Block} (hinv : b.Inv) (hidle : b.busy = false) (hdone : b.done = true) :
    (b.state = .done ∧ b.errKind = .noError) ∨ (b.state = .failed ∧ b.errKind ≠ .noError ∧ b.hValid = false) := by
  rcases hinv.terminal hidle hdone with hstate | hstate
  · exact .inl ⟨hstate, hinv.done_ok hstate⟩
  · have herror := hinv.failed_error hstate
    exact .inr ⟨hstate, herror, (hinv.error_invalid herror).1⟩

/-- Settles O56: the step that ends the operation leaves a terminal block with the invariant; after it the sequencer
rests, and the inputs reach the block only through the sequencer. -/
theorem exactlyOneOutcome : Obligations.ExactlyOneOutcome := by
  refine ⟨fun s t hinv hbusy hstep hidle hnoReset => ?ends, fun s a rest hidle hscript hmove => ?after⟩
  case ends =>
    have hdone := step_ends_done hbusy hstep hidle hnoReset
    exact ⟨hdone, (everyStepKeepsInv s t hinv hstep).outcome hidle hdone⟩
  case after =>
    rcases hmove with rfl | ⟨pull, rfl⟩ | ⟨n, rfl⟩
    · exact ⟨_, step_seq_idle hscript hidle, rfl⟩
    · exact ⟨_, step_sensor s pull rest hscript, rfl⟩
    · exact ⟨_, step_tick s n rest hscript, rfl⟩

end Sys2Proof.Machine
end

section
/-! The calibration formulas (46_calibration.md rules R252 to R259): each as the rule writes it, its range, and the two
operations that apply them in the one step after their acceptance. -/

namespace Sys2Proof.Machine

/-! ## The formulas, with the constants of the coefficient table (R62) -/

theorem raw_le (raw : Half) : (raw.toNat : Int) ≤ 65535 := by
  omega

theorem calTInt_formula (raw : Half) (res : Bool) :
    calTInt raw res = -3970 + (if res then 4 else 1) * (raw.toNat : Int) := by
  cases res <;> rfl

theorem rhLinInt_high (raw : Half) :
    rhLinInt raw false = -20468000000 + 367000000 * raw.toNat - 15955 * raw.toNat * raw.toNat := by
  rw [sub_eq_add_neg, ← neg_mul, ← neg_mul]
  rfl

theorem rhLinInt_low (raw : Half) :
    rhLinInt raw true = -20468000000 + 5872000000 * raw.toNat - 4084500 * raw.toNat * raw.toNat := by
  rw [sub_eq_add_neg, ← neg_mul, ← neg_mul]
  rfl

/-- What one centi-degree adds to the relative humidity, in units of 1000 e10: the `k` of R255. -/
def gainPerCentiDegree (raw : Half) (res : Bool) : Int := 1000 + (if res then 128 else 8) * (raw.toNat : Int)

theorem calRHInt_formula (raw : Half) (tc : Int) (res : Bool) :
    calRHInt raw tc res = (tc - 2500) * gainPerCentiDegree raw res * 1000 + rhLinInt raw res := by
  cases res <;> rfl

/-! ## The temperature -/

theorem calT_toInt (raw : Half) (res : Bool) :
    (calT raw res).toInt = -3970 + (if res then 4 else 1) * (raw.toNat : Int) := by
  rw [calT_formula]
  exact BitVec.toInt_ofInt_eq_self (by decide) (by split <;> omega) (by split <;> omega)

/-- Settles O29: either formula stays far inside 32 bits, so the word is the integer. -/
theorem temperatureFormulaIsExact : Obligations.TemperatureFormulaIsExact := by
  intro raw
  have hhigh : (calT raw false).toInt = -3970 + raw.toNat := (calT_toInt raw false).trans (by simp)
  have hlow : (calT raw true).toInt = -3970 + 4 * raw.toNat := calT_toInt raw true
  omega

/-! ## The humidity -/

theorem gainPerCentiDegree_bounds (raw : Half) (res : Bool) :
    1000 ≤ gainPerCentiDegree raw res ∧ gainPerCentiDegree raw res ≤ 8389480 := by
  unfold gainPerCentiDegree
  split <;> omega

/-- `rhLin` is concave, so it lies above its chord over the raw codes; the bound of R255 is its low-resolution value at
the last code. -/
theorem rhLinInt_bounds (raw : Half) (res : Bool) :
    -17157457509012500 ≤ rhLinInt raw res ∧ rhLinInt raw res ≤ 17157457509012500 := by
  have hraw := raw_le raw
  have hchord : 0 ≤ (raw.toNat : Int) * (65535 - raw.toNat) := mul_nonneg (by omega) (by omega)
  have hsquare : 0 ≤ (raw.toNat : Int) * raw.toNat := mul_self_nonneg _
  cases res with
  | false => rw [rhLinInt_high]; constructor <;> linarith
  | true => rw [rhLinInt_low]; constructor <;> linarith

section

variable {tc : Int} (hcold : -32768 ≤ tc) (hhot : tc ≤ 258170)

include hcold hhot

/-- The compensation term is least at the coldest temperature and the steepest gain, and no further from 0 than at the
hottest one (R255). -/
theorem compensation_bounds (raw : Half) (res : Bool) :
    -35268 * 8389480 * 1000 ≤ (tc - 2500) * gainPerCentiDegree raw res * 1000 ∧
      (tc - 2500) * gainPerCentiDegree raw res * 1000 ≤ 255670 * gainPerCentiDegree raw res * 1000 := by
  obtain ⟨hpos, hsteep⟩ := gainPerCentiDegree_bounds raw res
  have hleast : -35268 * gainPerCentiDegree raw res ≤ (tc - 2500) * gainPerCentiDegree raw res :=
    mul_le_mul_of_nonneg_right (by omega) (by omega)
  have hmost : (tc - 2500) * gainPerCentiDegree raw res ≤ 255670 * gainPerCentiDegree raw res :=
    mul_le_mul_of_nonneg_right (by omega) (by omega)
  omega

/-- At the hottest temperature the humidity is a parabola in the raw code.  In low resolution its largest value is that
at 4725, the code next to its vertex; in high resolution the vertex lies past the last code. -/
theorem calRHInt_bounds (raw : Half) (res : Bool) :
    -17453337689652500 ≤ calRHInt raw tc res ∧ calRHInt raw tc res ≤ 91420602687500 := by
  obtain ⟨hleast, hmost⟩ := compensation_bounds hcold hhot raw res
  have hlin := (rhLinInt_bounds raw res).1
  have hraw := raw_le raw
  rw [calRHInt_formula]
  refine ⟨by omega, (add_le_add_left hmost _).trans ?_⟩
  cases res with
  | false =>
    have hvertex : 0 ≤ (65535 - (raw.toNat : Int)) * (65535 - raw.toNat) := mul_self_nonneg _
    simp only [gainPerCentiDegree, rhLinInt_high, Bool.false_eq_true, if_false]
    linarith
  | true =>
    have hvertex : 0 ≤ ((raw.toNat : Int) - 4725) * (raw.toNat - 4725) := mul_self_nonneg _
    have hinteger : 0 ≤ ((raw.toNat : Int) - 4725) * (raw.toNat - 4724) := by
      rcases lt_or_ge raw.toNat 4725 with hbelow | habove
      · exact mul_nonneg_of_nonpos_of_nonpos (by omega) (by omega)
      · exact mul_nonneg (by omega) (by omega)
    simp only [gainPerCentiDegree, rhLinInt_low, if_true]
    linarith

end

theorem calRH_toInt {tc : Word} (hcold : -32768 ≤ tc.toInt) (hhot : tc.toInt ≤ 258170) (raw : Half) (res : Bool) :
    (calRH raw tc res).toInt = calRHInt raw tc.toInt res := by
  obtain ⟨hleast, hmost⟩ := calRHInt_bounds hcold hhot raw res
  exact BitVec.toInt_ofInt_eq_self (by decide) (by omega) (by omega)

/-- Settles O30: gain, compensation and `rhLin` lie within R255's bounds, hence the result does and the 64-bit word is
the integer. -/
theorem humidityFormulaNeverOverflows : Obligations.HumidityFormulaNeverOverflows := by
  intro raw tc hcold hhot
  have hexact := calRH_toInt hcold hhot raw
  refine ⟨by omega, fun res => ?terms, ?high, ?low, fun res => ?range⟩
  case terms =>
    obtain ⟨hpos, hsteep⟩ := gainPerCentiDegree_bounds raw res
    obtain ⟨hleast, hmost⟩ := compensation_bounds hcold hhot raw res
    exact ⟨hpos, hsteep, abs_le.mpr ⟨le_trans (by decide) hleast, hmost.trans (by omega)⟩,
      abs_le.mpr (rhLinInt_bounds raw res)⟩
  case high =>
    rw [hexact, calRHInt_formula, rhLinInt_high]
    rfl
  case low =>
    rw [hexact, calRHInt_formula, rhLinInt_low]
    rfl
  case range =>
    rw [hexact]
    exact calRHInt_bounds hcold hhot raw res

/-! ## The consequences -/

/-- The humidity is affine in the temperature, and its slope is the gain (R259). -/
theorem calRHInt_succ_sub (raw : Half) (tc : Int) (res : Bool) :
    calRHInt raw (tc + 1) res - calRHInt raw tc res = 1000 * gainPerCentiDegree raw res := by
  rw [calRHInt_formula, calRHInt_formula]
  ring

/-- Settles O31: each consequence is read off the formula it speaks of. -/
theorem calibrationConsequences : Obligations.CalibrationConsequences := by
  refine ⟨fun raw => ?formulas, fun raw raw' res hlt => ?increasing, fun raw res => ?ambient,
    fun raw tc res => ?affine, fun res => ?zero, fun raw raw' _ hquadruple => ?resolutions⟩
  case formulas =>
    simp only [calTInt_formula, Bool.false_eq_true, if_false, if_true]
    omega
  case increasing =>
    rw [calTInt_formula, calTInt_formula]
    split <;> omega
  case ambient => rw [calRHInt_formula, sub_self, zero_mul, zero_mul, zero_add]
  case affine =>
    have hslope := calRHInt_succ_sub raw tc res
    have hpos := (gainPerCentiDegree_bounds raw res).1
    exact ⟨hslope, by omega⟩
  case zero => cases res <;> decide
  case resolutions =>
    simp only [calTInt_formula, Bool.false_eq_true, if_false, if_true]
    omega

/-! ## The operations -/

/-- Running, with no event to come, the sequencer makes all the assignments left in one step (R233). -/
theorem step_eventless {s : State} {rest : List Act} (h : s.env.script = .seq :: rest) (hbusy : s.blk.busy = true)
    (hnone : (s.blk.lead s.blk.step.todo).step.todo = []) :
    step s = .next { s.movedOn rest with blk := s.blk.lead s.blk.step.todo } := by
  rw [step_advance h hbusy (fun byte todo hcall => by cases hnone.symm.trans hcall)]
  rcases advance_cases (s.movedOn rest) with ⟨e, more, hevent, -⟩ | ⟨-, hadv⟩
  · cases hnone.symm.trans hevent
  · exact hadv

/-- A command whose body has no wire event ends in the step after its acceptance, with no event in either step (R257,
R258). -/
theorem takes_eventlessOperation {s : State} {v : Word} {i : Instr} {b : Block} {rest : List Act}
    (hscript : s.env.script = .host (.write 0 v) :: .seq :: rest) (hdec : decodeHost (v.setWidth 16) = .instr i)
    (haccepts : exec i (s.movedOn (.seq :: rest)) = .next { s.movedOn (.seq :: rest) with blk := b })
    (hbusy : b.busy = true) (hnone : (b.lead b.step.todo).step.todo = []) :
    ∃ t, Takes 2 s [] t ∧ t.env.script = rest ∧ t.blk = b.lead b.step.todo := by
  have haccepted := (step_hostWord hscript hdec).trans haccepts
  have hends := step_eventless (s := { s.movedOn (.seq :: rest) with blk := b }) rfl hbusy hnone
  exact ⟨_, .step haccepted (.step hends (.stop _)), rfl, rfl⟩

theorem set_busy_of_idle {b : Block} (hidle : b.busy = false) : { b with busy := false } = b := by
  rw [← hidle]

theorem decodeHost_calTemp (res : Bool) :
    decodeHost ((if res then 0xB020 else 0xB000 : Word).setWidth 16) = .instr (.calTemp res) := by
  cases res <;> decide

theorem decodeHost_calHumid (res : Bool) :
    decodeHost ((if res then 0xC020 else 0xC000 : Word).setWidth 16) = .instr (.calHumid res) := by
  cases res <;> decide

/-- Settles O42: the body of either operation is one calibration and the completion, on the operands acceptance
copied. -/
theorem calibrationOperationsAreOneStep : Obligations.CalibrationOperationsAreOneStep := by
  intro s res rest hidle
  obtain ⟨htemp, hhumid⟩ := calibrationsAreAccepted (s.movedOn (.seq :: rest)) res hidle
  refine ⟨fun hscript => ?temp, fun hscript => ?humid⟩
  case temp =>
    obtain ⟨t, htakes, hrest, hblk⟩ := takes_eventlessOperation hscript (decodeHost_calTemp res) htemp rfl rfl
    refine ⟨htakes.trace_eq, t, htakes.runsTo, hrest, ?_⟩
    rw [hblk, ← calT_formula, ← set_busy_of_idle hidle]
    rfl
  case humid =>
    obtain ⟨t, htakes, hrest, hblk⟩ := takes_eventlessOperation hscript (decodeHost_calHumid res) hhumid rfl rfl
    refine ⟨htakes.trace_eq, t, htakes.runsTo, hrest, ?_⟩
    rw [hblk, ← set_busy_of_idle hidle]
    rfl

end Sys2Proof.Machine
end

section
/-! The host while an operation runs (70_reset_and_hazards.md rule R338): a write of `CTRL` is taken without its
`ACK_DONE` part, and a write of any other register is refused. -/

namespace Sys2Proof.Machine

section

variable {s : State} {r : Nat} {v : Word} {rest : List Act} (hbusy : s.blk.busy = true)

include hbusy

theorem step_writeCtrl_of_busy (h : s.env.script = .host (.write 2 v) :: rest) :
    step s = .next { s.movedOn rest with blk :=
      { s.blk with irqEn := v.getLsbD 2, reject := s.blk.reject && !v.getLsbD 1 } } := by
  rw [step_write_next (by omega) h]
  rcases writeCtrl_cases s.blk v with htaken | ⟨hidle, -⟩
  · exact congrArg (fun b => Host.Outcome.next { s.movedOn rest with blk := b }) htaken
  · cases hidle.symm.trans hbusy

theorem step_write_of_busy (hr : r ≠ 2) (h : s.env.script = .host (.write r v) :: rest) :
    step s = .next { s.movedOn rest with blk := { s.blk with reject := true } } := by
  by_cases hcmd : r = 0
  · subst hcmd
    exact refusedCommandOnlySetsReject s v rest h (.inr (.inl hbusy))
  · rw [step_write_next hcmd h]
    rcases hostWrite_cases r v (s.movedOn rest) with ⟨hctrl, -⟩ | hrefused | ⟨hidle, -⟩
    · exact absurd hctrl hr
    · exact congrArg Host.Outcome.next hrefused
    · cases hidle.symm.trans hbusy

end

/-- Settles O19: a read leaves the block as it is, a write of `CTRL` writes its two elements, and every other write is
refused. -/
theorem hostCannotAlterRunningOperation : Obligations.HostCannotAlterRunningOperation := by
  intro s a rest h hbusy
  cases a with
  | read r =>
    obtain ⟨t, hstep, hblk, -⟩ := step_read_next h
    refine ⟨t, hstep, by rw [hblk], fun _ _ hwrite => ?_, fun _ hwrite => ?_⟩ <;> cases hwrite
  | write r v =>
    by_cases hr : r = 2
    · subst hr
      refine ⟨_, step_writeCtrl_of_busy hbusy h, rfl, fun _ _ hwrite hlisted => ?_, fun _ hwrite => ?_⟩
      · cases hwrite
        omega
      · cases hwrite
        rfl
    · refine ⟨_, step_write_of_busy hbusy hr h, rfl, fun _ _ _ _ => rfl, fun _ hwrite => ?_⟩
      cases hwrite
      exact absurd rfl hr

end Sys2Proof.Machine
end
